-- ==== Sys2Proof/Word.lean ====
section
/-! DEFINITION. The two word types of the block: bytes and 32-bit words (00_scope.md R11). -/

namespace Sys2Proof

/-- One byte, an unsigned integer in 0..255 (00_scope.md section 5). -/
abbrev Byte := BitVec 8

/-- One register or descriptor, 32 bits (00_scope.md R11). -/
abbrev Word := BitVec 32

end Sys2Proof
end

