-- ==== Sys2Proof/Syntax.lean ====
section
/-! DEFINITION. What the block is told and what it answers, as data: commands, registers, host accesses, host scripts,
frames and scan entries. -/

namespace Sys2Proof

/-- The commands: one constructor per row of opcode_table.json (30_encoding.md R96). A command has no operand fields
(R95): its operands are the registers IN_LEN and CS_LEN and the buffer IBUF. -/
inductive Instr where
  | encode
  | checksum
  | validate
  | scan
  | softReset
  deriving DecidableEq, Repr

/-- What `pending` can hold: the commands that the engine completes (10_state.md R32). -/
inductive Op where
  | encode
  | checksum
  | validate
  | scan
  deriving DecidableEq, Repr, Inhabited

/-- Why a word written to CMD is no command (30_encoding.md R99). -/
inductive Reject where
  /-- a 1 in bits [31:4] -/
  | reservedBits
  /-- OP = 0x0 or OP = 0x5..0xE -/
  | unassignedOp
  deriving DecidableEq, Repr

/-- The eight registers of the REG space (10_state.md R22). -/
inductive Reg where
  | cmd
  | status
  | inLen
  | csLen
  | csum
  | outLen
  | resCount
  | param
  deriving DecidableEq, Repr

/-- The host accesses (30_encoding.md R104): kind, index, data. An index is any natural number, so that every
out-of-range access can be made. -/
inductive HostAccess where
  | regRead (off : Nat)
  | regWrite (off : Nat) (v : Word)
  | ibufWrite (i : Nat) (b : Byte)
  | ibufRead (i : Nat)
  | obufRead (i : Nat)
  | rbufRead (i : Nat)
  deriving DecidableEq, Repr

/-- One line of a host script: an access, or WAIT, which repeats a read of STATUS until BUSY reads 0
(30_encoding.md R103). -/
inductive ScriptItem where
  | access (a : HostAccess)
  | wait
  deriving DecidableEq, Repr

/-- The pseudo-instructions of the host-script language (30_encoding.md R103). -/
inductive Pseudo where
  | encode
  | checksum
  | validate
  | scan
  | srst
  | load (bytes : List Byte)
  | wait
  | clrAerr
  deriving DecidableEq, Repr

/-- The two agents (10_state.md R20). -/
inductive Agent where
  | host
  | engine
  deriving DecidableEq, Repr

/-- What an access returns to the host: a byte for the byte buffers, a word for registers and descriptors. -/
inductive Reply where
  | byte (b : Byte)
  | word (w : Word)
  deriving DecidableEq, Repr

/-- A frame of the wire protocol (30_encoding.md R90). -/
structure Frame where
  startByte : Byte
  length : Byte
  payload : List Byte
  checksum : Byte
  deriving DecidableEq, Repr

/-- A frame's validity (00_scope.md section 6): BAD means checksum mismatch. -/
inductive Tag where
  | ok
  | bad
  deriving DecidableEq, Repr

/-- One entry of a scan result (42_frame_scanner.md R160). -/
inductive Entry where
  | raw (off : Nat) (b : Byte)
  | frame (tag : Tag) (off : Nat) (len : Byte)
  deriving DecidableEq, Repr

end Sys2Proof
end

