-- ==== Sys2Proof/Config.lean ====
section
/-! DEFINITION. What an implementation fixes (N_IBUF) and the free values of the spec: opaque constants with no body,
so that no proof can rest on what they are. -/

namespace Sys2Proof

/-- How far N_IBUF lies above its least legal value: anything in 0..2^22-258 (00_scope.md R10; log 5). -/
opaque Config.nIbufExcess : Fin 4194047

/-- N_IBUF, the capacity of IBUF and RBUF: an open parameter with 258 <= N_IBUF <= 2^22 (00_scope.md R10; log 5). -/
def Config.nIbuf : Nat := 258 + Config.nIbufExcess.val

/-- FREE VALUE: what a read of CSUM, OUT_LEN, RES_COUNT or an RBUF entry returns while BUSY = 1
(70_reset_and_hazards.md R255, U5; log 3). Applied to the draw counter of State: a fresh value for each read. -/
opaque Config.freeWord : Nat → Word

/-- FREE VALUE: what a read of an OBUF byte returns while BUSY = 1 (70_reset_and_hazards.md R255, U5; log 3). -/
opaque Config.freeByte : Nat → Byte

/-- FREE VALUE: what `pending` holds after a reset (10_state.md R32, U6; log 4). -/
opaque Config.freePending : Nat → Op

end Sys2Proof
end

