-- ==== Sys2Proof/Machine/State.lean ====
section
/-! DEFINITION. The state of the block (10_state.md), its reset value (R37) and the reasons a step can stop. -/

namespace Sys2Proof.Machine

/-- A buffer: the entries that have been written since reset, by index (10_state.md R34; log 6). An entry's written mark
is set exactly when the entry is listed. `Memory 8` is `List Host.Cell`. -/
abbrev Memory (w : Nat) := List (Nat × BitVec w)

/-- What an unlisted entry reads as: nothing, since its content is unspecified (10_state.md R37; log 6). -/
def Memory.unlisted (w : Nat) : Option (BitVec w) := none

/-- The canonical form: indices strictly rising, no listed entry equal to what an unlisted one reads as. -/
abbrev Memory.wf {w : Nat} (m : Memory w) : Prop :=
  (m.map Prod.fst).Pairwise (· < ·) ∧ ∀ c ∈ m, some c.2 ≠ Memory.unlisted w

/-- The state. STATUS is held by its fields (10_state.md R24); reserved register bits hold no state (R22, R101). -/
structure State where
  /-- STATUS.BUSY -/
  busy : Bool
  /-- STATUS.DONE -/
  done : Bool
  /-- STATUS.ERR -/
  err : Bool
  /-- STATUS.VALID -/
  valid : Bool
  /-- STATUS.ERRCODE -/
  errCode : BitVec 4
  /-- STATUS.AERR -/
  aerr : Bool
  /-- IN_LEN [22:0] (R25) -/
  inLen : BitVec 23
  /-- CS_LEN [7:0] (R26) -/
  csLen : BitVec 8
  /-- CSUM [7:0] (R27) -/
  csum : BitVec 8
  /-- OUT_LEN [8:0] (R28) -/
  outLen : BitVec 9
  /-- RES_COUNT [22:0] (R29) -/
  resCount : BitVec 23
  /-- PARAM.NIBUF [22:0], the constant N_IBUF (R30) -/
  param : BitVec 23
  /-- the accepted command, meaningful only while BUSY = 1 (R32) -/
  pending : Op
  /-- the input buffer (20_memory.md R61) -/
  ibuf : List Host.Cell
  /-- the output buffer (20_memory.md R62) -/
  obuf : List Host.Cell
  /-- the result buffer, 32-bit descriptors (20_memory.md R63) -/
  rbuf : List (Nat × BitVec 32)
  /-- the model's own: what the host has still to do (log 1) -/
  script : List ScriptItem
  /-- the model's own: which agent moves next (log 1) -/
  schedule : List Agent
  /-- the model's own: what the last host access returned to the host (log 2) -/
  reply : Option Reply
  /-- the model's own: how many free values have been drawn (log 3) -/
  draws : Nat
  deriving DecidableEq, Repr

/-- Model faults (60_exceptions.md R226): places where the hardware's value is unspecified. -/
inductive Fault where
  /-- UNINIT_INPUT: raised by the completion of ENCODE, CHECKSUM, VALIDATE and SCAN over an input slice with a byte not
  written since reset (R226, U4). Safe: the model stops where the hardware goes on. -/
  | uninitInput
  /-- UNINIT_READ: raised by a host read of an IBUF, OBUF or RBUF entry not written since reset (R226, U3). Safe. -/
  | uninitRead
  /-- RESERVED_KIND: raised by a host read of a descriptor with KIND 0b11 inside the result range (R100, U8). Safe. -/
  | reservedKind
  /-- A reserved ERRCODE: raised by a host read of STATUS that would show ERRCODE 3..15 (R220, U9). Safe. -/
  | reservedErrCode
  deriving DecidableEq, Repr

/-- Refusals. -/
inductive Refusal where
  /-- Raised by exec for an instruction without a meaning; no arm of this model does. Safe. -/
  | notModelled (mnemonic : String)
  deriving DecidableEq, Repr

/-- What `reset()` makes of a block with the given N_IBUF (10_state.md R37, 70_reset_and_hazards.md R251). `pending` is
unspecified after reset (U6), so its value is an argument; the model's own fields are empty. -/
def State.init (nIbuf : BitVec 23) (pending : Op) : State where
  busy := false
  done := false
  err := false
  valid := false
  errCode := 0#4
  aerr := false
  inLen := 0#23
  csLen := 0#8
  csum := 0#8
  outLen := 0#9
  resCount := 0#23
  param := nIbuf
  pending := pending
  ibuf := []
  obuf := []
  rbuf := []
  script := []
  schedule := []
  reply := none
  draws := 1

/-- The state after power-on reset (70_reset_and_hazards.md R250, R251). -/
def State.reset : State := State.init (BitVec.ofNat 23 Config.nIbuf) (Config.freePending 0)

/-- N_IBUF as the state holds it, the capacity of IBUF and RBUF (10_state.md R30). -/
def State.nIbuf (s : State) : Nat := s.param.toNat

end Sys2Proof.Machine
end

