-- ==== Sys2Proof/Machine/Ops.lean ====
section
/-! DEFINITION. The named operations over the buffers and the state: buffer reads and writes, AccessError, error entry,
the acceptance that clears it, and reset. -/

namespace Sys2Proof.Machine

/-- The entry at an index of a buffer (20_memory.md R60); an unlisted entry reads as `Memory.unlisted`. -/
def Memory.read {w : Nat} : Memory w → Nat → Option (BitVec w)
  | [], _ => Memory.unlisted w
  | c :: m, a => if c.1 = a then some c.2 else Memory.read m a

/-- The written mark of an entry (10_state.md R34). -/
def Memory.written {w : Nat} (m : Memory w) (a : Nat) : Bool := (Memory.read m a).isSome

/-- MemWrite of one entry, which also sets its written mark (10_state.md R34). Keeps the canonical form. -/
def Memory.write {w : Nat} : Memory w → Nat → BitVec w → Memory w
  | [], a, v => [(a, v)]
  | c :: m, a, v =>
    if a < c.1 then (a, v) :: c :: m
    else if a = c.1 then (a, v) :: m
    else c :: Memory.write m a v

/-- MemWrites of consecutive entries, the first at `a`. -/
def Memory.writeList {w : Nat} (m : Memory w) (a : Nat) : List (BitVec w) → Memory w
  | [] => m
  | v :: vs => Memory.writeList (Memory.write m a v) (a + 1) vs

/-- The `n` entries from `a` on, or none where one of them is not written. -/
def Memory.readList {w : Nat} (m : Memory w) (a : Nat) : Nat → Option (List (BitVec w))
  | 0 => some []
  | n + 1 =>
    match Memory.read m a, Memory.readList m (a + 1) n with
    | some v, some vs => some (v :: vs)
    | _, _ => none

/-- `reg[CSUM] <- v` (10_state.md R27). -/
def setCsum (v : Byte) (s : State) : State := { s with csum := v }

/-- `reg[OUT_LEN] <- v` (10_state.md R28). -/
def setOutLen (v : BitVec 9) (s : State) : State := { s with outLen := v }

/-- `reg[IN_LEN] <- v` (10_state.md R25). -/
def setInLen (v : BitVec 23) (s : State) : State := { s with inLen := v }

/-- `reg[CS_LEN] <- v` (10_state.md R26). -/
def setCsLen (v : BitVec 8) (s : State) : State := { s with csLen := v }

/-- `STATUS.VALID <- v` (10_state.md R24). -/
def setValid (v : Bool) (s : State) : State := { s with valid := v }

/-- `STATUS.AERR <- 0` (10_state.md R24). -/
def clearAerr (s : State) : State := { s with aerr := false }

/-- `IBUF[i] <- b`, which marks the byte written (43_control_and_host.md R196). -/
def storeIbuf (i : Nat) (b : Byte) (s : State) : State := { s with ibuf := Memory.write s.ibuf i b }

/-- The host's script goes on with `rest` (log 1). -/
def setScript (rest : List ScriptItem) (s : State) : State := { s with script := rest }

/-- AccessError: sets AERR and changes nothing else (60_exceptions.md R225). -/
def accessError (s : State) : State := { s with aerr := true }

/-- Error entry, the block's taking of an exception (60_exceptions.md R227): ERR and ERRCODE say what happened, the
command is over. Nothing is saved, no mode changes and control goes nowhere. -/
def raiseError (code : BitVec 4) (s : State) : State :=
  { s with err := true, errCode := code, done := true, busy := false }

/-- ERRCODE of INVALID_PAYLOAD_SIZE (60_exceptions.md R220). -/
def invalidPayloadSize : BitVec 4 := 0x1#4

/-- ERRCODE of ILLEGAL_OP (60_exceptions.md R220). -/
def illegalOp : BitVec 4 := 0x2#4

/-- Command acceptance (43_control_and_host.md R193). It also is all there is of a return from an error: the next
acceptance clears DONE, ERR, VALID and ERRCODE (60_exceptions.md R228). -/
def accept (op : Op) (s : State) : State :=
  { s with pending := op, done := false, err := false, valid := false, errCode := 0#4, busy := true }

/-- The successful end of a command (43_control_and_host.md R201). -/
def complete (s : State) : State := { s with busy := false, done := true }

/-- `reset()` (70_reset_and_hazards.md R251). PARAM keeps N_IBUF; `pending` becomes a fresh free value (U6). What is left
of the host's script and the schedule is outside the block and stays. -/
def resetBlock (s : State) : State :=
  { State.init s.param (Config.freePending s.draws) with
    script := s.script, schedule := s.schedule, reply := s.reply, draws := s.draws + 1 }

/-- The value `r` returned to the host. -/
def answer (r : Reply) (s : State) : State := { s with reply := some r }

/-- A fresh unspecified word returned to the host (70_reset_and_hazards.md R255). -/
def answerFreeWord (s : State) : State :=
  { s with reply := some (.word (Config.freeWord s.draws)), draws := s.draws + 1 }

/-- A fresh unspecified byte returned to the host (70_reset_and_hazards.md R255). -/
def answerFreeByte (s : State) : State :=
  { s with reply := some (.byte (Config.freeByte s.draws)), draws := s.draws + 1 }

/-- Nothing returned to the host: the access was a write. -/
def noAnswer (s : State) : State := { s with reply := none }

end Sys2Proof.Machine
end

