-- ==== Sys2Proof/Machine/Operands.lean ====
section
/-! DEFINITION. The operand that every command reads from IBUF: its input slice (10_state.md R25). -/

namespace Sys2Proof.Machine

/-- IN, the input slice IBUF[0..IN_LEN-1], or none where one of its bytes is not written (20_memory.md R61,
70_reset_and_hazards.md R256). -/
def inputBytes (s : State) : Option (List Byte) := Memory.readList s.ibuf 0 s.inLen.toNat

/-- The completion of a command over its whole input slice: a model fault UNINIT_INPUT where a byte of it is not
written, else the state `k` makes of the bytes (40_frame_encoder.md R123, 70_reset_and_hazards.md R256). -/
def withInput (s : State) (k : List Byte → State) : Host.Outcome State Fault Refusal :=
  match inputBytes s with
  | some bytes => .next (k bytes)
  | none => .fault .uninitInput

end Sys2Proof.Machine
end

