-- ==== Sys2Proof/Machine/Flags.lean ====
section
/-! DEFINITION. STATUS as the host reads and writes it (10_state.md R24), and the word each register reads as (R22). -/

namespace Sys2Proof.Machine

/-- A flag as one bit. -/
def flag (b : Bool) : BitVec 1 := BitVec.ofBool b

/-- STATUS as a word: BUSY [0], DONE [1], ERR [2], VALID [3], ERRCODE [7:4], AERR [8], zeros above (10_state.md R24). -/
def statusWord (s : State) : Word :=
  0#23 ++ (flag s.aerr ++ (s.errCode ++ (flag s.valid ++ (flag s.err ++ (flag s.done ++ flag s.busy)))))

/-- A host write of `v` to STATUS while BUSY = 0: bit 8 = 1 clears AERR, every other bit is ignored
(10_state.md R24). -/
def writeStatus (v : Word) (s : State) : State :=
  if v.getLsbD 8 then clearAerr s else s

/-- ERRCODE values 3..15 are reserved (60_exceptions.md R220). -/
def reservedErrCode (code : BitVec 4) : Bool := decide (2 < code.toNat)

/-- The word a register reads as while BUSY = 0, reserved bits 0 (10_state.md R22); CMD reads 0 (R23). -/
def regValue (s : State) : Reg → Word
  | .cmd => 0#32
  | .status => statusWord s
  | .inLen => s.inLen.setWidth 32
  | .csLen => s.csLen.setWidth 32
  | .csum => s.csum.setWidth 32
  | .outLen => s.outLen.setWidth 32
  | .resCount => s.resCount.setWidth 32
  | .param => s.param.setWidth 32

/-- The registers whose reads are unspecified while BUSY = 1 (70_reset_and_hazards.md R255). -/
def outputReg : Reg → Bool
  | .csum => true
  | .outLen => true
  | .resCount => true
  | .cmd => false
  | .status => false
  | .inLen => false
  | .csLen => false
  | .param => false

end Sys2Proof.Machine
end

