-- ==== Sys2Proof/Machine/Control.lean ====
section
/-! DEFINITION. The control command SOFT_RESET and the rejection of illegal CMD words (43_control_and_host.md
section 1). -/

namespace Sys2Proof.Machine

/-- SOFT_RESET: `reset()` at once, in any state; a pending command is abandoned (43_control_and_host.md R190). -/
def execSoftReset (s : State) : Host.Outcome State Fault Refusal := .next (resetBlock s)

/-- A host write of an illegal word to CMD while BUSY = 0, by R191's own pseudocode (43_control_and_host.md). That it writes
VALID too, which 60_exceptions.md R227 does not list, is DEDUCED: R191 is followed where the two differ (log 19). -/
def illegalCommand (s : State) : State := raiseError illegalOp (setValid false s)

end Sys2Proof.Machine
end

