-- ==== Sys2Proof/WellFormed.lean ====
section
/-! DEFINITION. The checks the spec puts on words, frames and parameters. -/

namespace Sys2Proof

/-- START, the fixed first byte of a frame (00_scope.md R8). -/
def startCode : Byte := 0x02#8

/-- MAX_PAYLOAD (00_scope.md R7). -/
def maxPayload : Nat := 255

/-- MAX_FRAME, also the capacity of OBUF (00_scope.md R9, 20_memory.md R62). -/
def maxFrame : Nat := maxPayload + 3

/-- A command has no operand, so every command is well formed (30_encoding.md R95). -/
def Instr.wellFormed : Instr → Bool
  | .encode => true
  | .checksum => true
  | .validate => true
  | .scan => true
  | .softReset => true

/-- First check on a CMD word: bits [31:4] are zero (30_encoding.md R95). -/
def CmdWord.zeroBits (w : Word) : Bool := w.extractLsb' 4 28 == 0#28

/-- Second check on a CMD word: OP is an assigned code (30_encoding.md R96). -/
def CmdWord.assignedOp (w : Word) : Bool :=
  [1#4, 2#4, 3#4, 4#4, 15#4].contains (w.extractLsb' 0 4)

/-- A word that names a command (30_encoding.md R96, R99). -/
def CmdWord.wellFormed (w : Word) : Bool := CmdWord.zeroBits w && CmdWord.assignedOp w

/-- A structurally complete frame: the start byte is START and the payload has the declared length
(30_encoding.md R90). -/
def Frame.complete (f : Frame) : Bool :=
  f.startByte == startCode && f.payload.length == f.length.toNat

/-- The legal values of the parameter N_IBUF (00_scope.md R10). -/
def nIbufLegal (n : Nat) : Bool := decide (258 ≤ n) && decide (n ≤ 2 ^ 22)

end Sys2Proof
end

