-- ==== Sys2Proof/Decode.lean ====
section
/-! DEFINITION. The block's encodings: CMD words, register offsets, scan descriptors and host-script expansions, each
with its decoder and encoder. -/

namespace Sys2Proof

/-- OP, bits [3:0] of a CMD word (30_encoding.md R95). -/
def opField (w : Word) : BitVec 4 := w.extractLsb' 0 4

/-- The zero field, bits [31:4] of a CMD word (30_encoding.md R95). -/
def zeroField (w : Word) : BitVec 28 := w.extractLsb' 4 28

/-- The command of an OP code (30_encoding.md R96). -/
def decodeOp (op : BitVec 4) : Except Reject Instr :=
  if op = 0x1#4 then .ok .encode
  else if op = 0x2#4 then .ok .checksum
  else if op = 0x3#4 then .ok .validate
  else if op = 0x4#4 then .ok .scan
  else if op = 0xF#4 then .ok .softReset
  else .error .unassignedOp

/-- The command named by a word written to CMD, or why there is none (30_encoding.md R96, R99). The block has no byte
order in a register (20_memory.md R66), so the word is decoded whole. -/
def decode (w : Word) : Except Reject Instr :=
  if zeroField w = 0#28 then decodeOp (opField w) else .error .reservedBits

/-- The OP code of a command (30_encoding.md R96). -/
def opCode : Instr → BitVec 4
  | .encode => 0x1#4
  | .checksum => 0x2#4
  | .validate => 0x3#4
  | .scan => 0x4#4
  | .softReset => 0xF#4

/-- The CMD word of a command: zero in [31:4], its code in [3:0] (30_encoding.md R95). -/
def encode (i : Instr) : Word := 0#28 ++ opCode i

/-- The decoder on a row of opcode_table.json: the table's one word is the whole CMD word. -/
def decodeTableWord (nbits w : Nat) : Option Instr :=
  if nbits ≤ 32 ∧ w < 2 ^ 32 then (decode (BitVec.ofNat 32 w)).toOption else none

/-- The command an operation of `pending` stands for (10_state.md R32). -/
def Op.toInstr : Op → Instr
  | .encode => .encode
  | .checksum => .checksum
  | .validate => .validate
  | .scan => .scan

/-- The byte offset of a register (10_state.md R22). -/
def Reg.offset : Reg → Nat
  | .cmd => 0x00
  | .status => 0x04
  | .inLen => 0x08
  | .csLen => 0x0C
  | .csum => 0x10
  | .outLen => 0x14
  | .resCount => 0x18
  | .param => 0x1C

/-- The register at an offset; every other offset (reserved, misaligned, at or beyond 0x100) has none
(10_state.md R22, R31). -/
def Reg.ofOffset (off : Nat) : Option Reg :=
  if off = 0x00 then some .cmd
  else if off = 0x04 then some .status
  else if off = 0x08 then some .inLen
  else if off = 0x0C then some .csLen
  else if off = 0x10 then some .csum
  else if off = 0x14 then some .outLen
  else if off = 0x18 then some .resCount
  else if off = 0x1C then some .param
  else none

/-- The KIND code of a frame's tag (30_encoding.md R98). -/
def Tag.kind : Tag → BitVec 2
  | .ok => 0b01#2
  | .bad => 0b10#2

/-- The 32-bit descriptor with the given KIND [31:30], OFFSET [29:8] and BYTE [7:0] (30_encoding.md R97). -/
def descWord (kind : BitVec 2) (off : Nat) (b : Byte) : Word := (kind ++ BitVec.ofNat 22 off) ++ b

/-- The descriptor of a scan entry (42_frame_scanner.md R167). -/
def desc : Entry → Word
  | .raw off b => descWord 0b00#2 off b
  | .frame tag off len => descWord tag.kind off len

/-- KIND, bits [31:30] of a descriptor (30_encoding.md R97). -/
def descKind (d : Word) : BitVec 2 := d.extractLsb' 30 2

/-- OFFSET, bits [29:8] of a descriptor (30_encoding.md R97). -/
def descOffset (d : Word) : Nat := (d.extractLsb' 8 22).toNat

/-- BYTE, bits [7:0] of a descriptor (30_encoding.md R97). -/
def descByte (d : Word) : Byte := d.extractLsb' 0 8

/-- The entry a descriptor stands for; the reserved KIND 0b11 stands for none (30_encoding.md R98, R100). -/
def entryOfDesc (d : Word) : Option Entry :=
  if descKind d = 0b00#2 then some (.raw (descOffset d) (descByte d))
  else if descKind d = 0b01#2 then some (.frame .ok (descOffset d) (descByte d))
  else if descKind d = 0b10#2 then some (.frame .bad (descOffset d) (descByte d))
  else none

/-- The IbufWrites of LOAD, from index `i` on (30_encoding.md R103). -/
def loadBytes : Nat → List Byte → List ScriptItem
  | _, [] => []
  | i, b :: bs => .access (.ibufWrite i b) :: loadBytes (i + 1) bs

/-- A register write, by the register's name. -/
def wreg (r : Reg) (v : Word) : ScriptItem := .access (.regWrite r.offset v)

/-- The expansions of the pseudo-instructions (30_encoding.md R103). -/
def Pseudo.expand : Pseudo → List ScriptItem
  | .encode => [wreg .cmd 0x1#32]
  | .checksum => [wreg .cmd 0x2#32]
  | .validate => [wreg .cmd 0x3#32]
  | .scan => [wreg .cmd 0x4#32]
  | .srst => [wreg .cmd 0xF#32]
  | .load bs => loadBytes 0 bs ++ [wreg .inLen (BitVec.ofNat 32 bs.length)]
  | .wait => [.wait]
  | .clrAerr => [wreg .status 0x100#32]

end Sys2Proof
end

