-- ==== Sys2Proof/Machine/Encoder.lean ====
section
/-! DEFINITION. The frame encoder (40_frame_encoder.md): the checksum and encode functions, and the commands CHECKSUM
and ENCODE over them. -/

namespace Sys2Proof.Machine

/-- The sum of the bytes of a sequence, as a natural number (00_scope.md section 5). -/
def byteSum : List Byte → Nat
  | [] => 0
  | b :: bs => b.toNat + byteSum bs

/-- `checksum(length, payload)` (40_frame_encoder.md R120). -/
def checksum (length : Byte) (payload : List Byte) : Byte :=
  let s := (length.toNat + byteSum payload) % 256
  BitVec.ofNat 8 ((256 - s) % 256)

/-- The frame that carries a payload; meant for payloads of at most 255 bytes (40_frame_encoder.md R124). -/
def frameOf (payload : List Byte) : Frame where
  startByte := startCode
  length := BitVec.ofNat 8 payload.length
  payload := payload
  checksum := checksum (BitVec.ofNat 8 payload.length) payload

/-- The bytes of a frame in wire order (30_encoding.md R90). -/
def wireBytes (f : Frame) : List Byte := [f.startByte, f.length] ++ f.payload ++ [f.checksum]

/-- `encode(payload)`: none is Error(INVALID_PAYLOAD_SIZE) (40_frame_encoder.md R124). -/
def encodeFrame (payload : List Byte) : Option (List Byte) :=
  if payload.length ≤ maxPayload then some (wireBytes (frameOf payload)) else none

/-- The completion step of CHECKSUM (40_frame_encoder.md R123). -/
def completeChecksum (s : State) : Host.Outcome State Fault Refusal :=
  withInput s fun bytes => complete (setCsum (checksum s.csLen bytes) s)

/-- A successful ENCODE of the payload `bytes` (40_frame_encoder.md R125). -/
def storeFrame (bytes : List Byte) (s : State) : State :=
  { s with
    obuf := Memory.writeList s.obuf 0 (wireBytes (frameOf bytes))
    outLen := BitVec.ofNat 9 (bytes.length + 3)
    csum := (frameOf bytes).checksum }

/-- The completion step of ENCODE: the length is checked before IBUF is read (40_frame_encoder.md R125, R126). -/
def completeEncode (s : State) : Host.Outcome State Fault Refusal :=
  if maxPayload < s.inLen.toNat then .next (raiseError invalidPayloadSize (setOutLen 0#9 s))
  else withInput s fun bytes => complete (storeFrame bytes s)

/-- CHECKSUM: accepted while BUSY = 0 (43_control_and_host.md R193); while BUSY = 1 it is the command in flight, and this
is its completion step (R201, 40_frame_encoder.md R123; log 7). -/
def execChecksum (s : State) : Host.Outcome State Fault Refusal :=
  if s.busy then completeChecksum s else .next (accept .checksum s)

/-- ENCODE: accepted while BUSY = 0 (43_control_and_host.md R193); while BUSY = 1 it is the command in flight, and this is
its completion step (R201, 40_frame_encoder.md R125, R126; log 7). -/
def execEncode (s : State) : Host.Outcome State Fault Refusal :=
  if s.busy then completeEncode s else .next (accept .encode s)

end Sys2Proof.Machine
end

