-- ==== Sys2Proof/Machine/Decoder.lean ====
section
/-! DEFINITION. The frame decoder (41_frame_decoder.md): the validate predicate and the command VALIDATE. -/

namespace Sys2Proof.Machine

/-- Byte `i` of a sequence. The callers read only positions inside it; the 0 past its end is never used (log 18). -/
def byteAt (f : List Byte) (i : Nat) : Byte := f.getD i 0#8

/-- `slice(f, i, k)` (00_scope.md section 5). -/
def slice (f : List Byte) (i k : Nat) : List Byte := (f.drop i).take k

/-- `validate(f)`, check by check (41_frame_decoder.md R140). -/
def validate (f : List Byte) : Bool :=
  if f.length < 4 then false
  else if byteAt f 0 ≠ startCode then false
  else if f.length ≤ 2 + (byteAt f 1).toNat then false
  else byteAt f (2 + (byteAt f 1).toNat) == checksum (byteAt f 1) (slice f 2 (byteAt f 1).toNat)

/-- The completion step of VALIDATE (41_frame_decoder.md R142). -/
def completeValidate (s : State) : Host.Outcome State Fault Refusal :=
  withInput s fun bytes => complete (setValid (validate bytes) s)

/-- VALIDATE: accepted while BUSY = 0 (43_control_and_host.md R193); while BUSY = 1 it is the command in flight, and this
is its completion step (R201, 41_frame_decoder.md R142; log 7). -/
def execValidate (s : State) : Host.Outcome State Fault Refusal :=
  if s.busy then completeValidate s else .next (accept .validate s)

end Sys2Proof.Machine
end

