-- ==== Sys2Proof/Machine/Scanner.lean ====
section
/-! DEFINITION. The frame scanner (42_frame_scanner.md): the scan function, the decode view and the command SCAN. -/

namespace Sys2Proof.Machine

/-- Whether a frame is emitted at cursor `c`: a start byte, two more bytes, and the declared checksum byte inside the
buffer (42_frame_scanner.md R162). Offsets are natural numbers, so nothing wraps (R170). -/
def frameFits (buf : List Byte) (c : Nat) : Bool :=
  byteAt buf c == startCode && decide (c + 2 < buf.length) &&
    decide (c + 2 + (byteAt buf (c + 1)).toNat < buf.length)

/-- The tag of the frame at `c`, by checksum match alone (42_frame_scanner.md R163). -/
def tagAt (buf : List Byte) (c : Nat) : Tag :=
  let len := byteAt buf (c + 1)
  if byteAt buf (c + 2 + len.toNat) = checksum len (slice buf (c + 2) len.toNat) then .ok else .bad

/-- The entry emitted at cursor `c` (42_frame_scanner.md R161, R162). -/
def entryAt (buf : List Byte) (c : Nat) : Entry :=
  if frameFits buf c then .frame (tagAt buf c) c (byteAt buf (c + 1)) else .raw c (byteAt buf c)

/-- The bytes an entry spans (42_frame_scanner.md R165), by which the cursor advances (R161, R162). -/
def entrySpan : Entry → Nat
  | .raw _ _ => 1
  | .frame _ _ len => len.toNat + 3

/-- The offset of an entry's first byte. -/
def entryOffset : Entry → Nat
  | .raw off _ => off
  | .frame _ off _ => off

/-- The loop of `scan`, with a bound on its turns (42_frame_scanner.md R160). Each turn advances the cursor by at least
one, so a bound of `buf.length - cursor` is never what ends it. -/
def scanLoop (buf : List Byte) : Nat → Nat → List Entry
  | 0, _ => []
  | fuel + 1, cursor =>
    if cursor < buf.length then
      entryAt buf cursor :: scanLoop buf fuel (cursor + entrySpan (entryAt buf cursor))
    else []

/-- The rest of a scan, from a cursor on. -/
def scanFrom (buf : List Byte) (cursor : Nat) : List Entry := scanLoop buf (buf.length - cursor) cursor

/-- `scan(buf)` (42_frame_scanner.md R160). -/
def scan (buf : List Byte) : List Entry := scanFrom buf 0

/-- The frame a buffer holds at offset `o` with declared length `len`: the decode view (42_frame_scanner.md R168). -/
def frameAt (buf : Memory 8) (o : Nat) (len : Byte) : Option Frame :=
  match Memory.read buf o, Memory.read buf (o + 1), Memory.readList buf (o + 2) len.toNat,
      Memory.read buf (o + 2 + len.toNat) with
  | some b, some l, some p, some c => some { startByte := b, length := l, payload := p, checksum := c }
  | _, _, _, _ => none

/-- The decode view of a descriptor over IBUF: the frame it denotes, none for a RAW or reserved descriptor
(42_frame_scanner.md R168). -/
def decodeView (buf : Memory 8) (d : Word) : Option Frame :=
  match entryOfDesc d with
  | some (.frame _ o len) => frameAt buf o len
  | some (.raw _ _) => none
  | none => none

/-- SCAN's writes for the result `r` (42_frame_scanner.md R166). -/
def storeResult (r : List Entry) (s : State) : State :=
  { s with
    rbuf := Memory.writeList s.rbuf 0 (r.map desc)
    resCount := BitVec.ofNat 23 r.length }

/-- The completion step of SCAN (42_frame_scanner.md R166). -/
def completeScan (s : State) : Host.Outcome State Fault Refusal :=
  withInput s fun bytes => complete (storeResult (scan bytes) s)

/-- SCAN: accepted while BUSY = 0 (43_control_and_host.md R193); while BUSY = 1 it is the command in flight, and this is
its completion step (R201, 42_frame_scanner.md R166; log 7). -/
def execScan (s : State) : Host.Outcome State Fault Refusal :=
  if s.busy then completeScan s else .next (accept .scan s)

end Sys2Proof.Machine
end

