-- ==== Sys2Proof/Machine/Dispatch.lean ====
section
/-! DEFINITION. exec: each command's meaning. -/

namespace Sys2Proof.Machine

def exec (i : Instr) (s : State) : Host.Outcome State Fault Refusal :=
  match i with
  | .encode => Sys2Proof.Machine.execEncode s
  | .checksum => Sys2Proof.Machine.execChecksum s
  | .validate => Sys2Proof.Machine.execValidate s
  | .scan => Sys2Proof.Machine.execScan s
  | .softReset => Sys2Proof.Machine.execSoftReset s

end Sys2Proof.Machine
end

