-- ==== Sys2Proof/Machine/HostPort.lean ====
section
/-! DEFINITION. The host accesses (43_control_and_host.md R192 to R199). A read leaves what it returns in `reply`. -/

namespace Sys2Proof.Machine

/-- A read at an invalid offset or index: 0 is returned and AERR is set (10_state.md R31, 20_memory.md R78). -/
def invalidRead (zero : Reply) (s : State) : State := answer zero (accessError s)

/-- RegRead (43_control_and_host.md R194). While BUSY = 1 the output registers read as free values
(70_reset_and_hazards.md R255); a reserved ERRCODE is a model fault (U9). -/
def regRead (off : Nat) (s : State) : Host.Outcome State Fault Refusal :=
  match Reg.ofOffset off with
  | none => .next (invalidRead (.word 0#32) s)
  | some r =>
    if s.busy && outputReg r then .next (answerFreeWord s)
    else if r == .status && reservedErrCode s.errCode then .fault .reservedErrCode
    else .next (answer (.word (regValue s r)) s)

/-- A host write of `v` to CMD: acceptance (R193) or SOFT_RESET (R190) where `v` names a command, ILLEGAL_OP where it
names none (R191); while BUSY = 1 only SOFT_RESET has an effect, all else is dropped with AERR (R192). -/
def writeCmd (v : Word) (s : State) : Host.Outcome State Fault Refusal :=
  match decode v with
  | .ok i => if s.busy && i != .softReset then .next (accessError s) else exec i s
  | .error _ => if s.busy then .next (accessError s) else .next (illegalCommand s)

/-- IN_LEN takes a value of at most N_IBUF, judged on all 32 bits; any other write is dropped with AERR
(10_state.md R25). -/
def writeInLen (v : Word) (s : State) : State :=
  if v.toNat ≤ s.nIbuf then setInLen (v.setWidth 23) s else accessError s

/-- CS_LEN takes a value of at most 255; any other write is dropped with AERR (10_state.md R26). -/
def writeCsLen (v : Word) (s : State) : State :=
  if v.toNat ≤ 255 then setCsLen (v.setWidth 8) s else accessError s

/-- A register write other than to CMD while BUSY = 0 (43_control_and_host.md R195). -/
def writeIdleReg (r : Option Reg) (v : Word) (s : State) : State :=
  match r with
  | some .status => writeStatus v s
  | some .inLen => writeInLen v s
  | some .csLen => writeCsLen v s
  | some .cmd => s
  | some .csum => accessError s
  | some .outLen => accessError s
  | some .resCount => accessError s
  | some .param => accessError s
  | none => accessError s

/-- RegWrite (43_control_and_host.md R195, R192). -/
def regWrite (off : Nat) (v : Word) (s : State) : Host.Outcome State Fault Refusal :=
  match Reg.ofOffset off with
  | some .cmd => writeCmd v (noAnswer s)
  | r => if s.busy then .next (accessError (noAnswer s)) else .next (writeIdleReg r v (noAnswer s))

/-- IbufWrite (43_control_and_host.md R196, R192). -/
def ibufWrite (i : Nat) (b : Byte) (s : State) : Host.Outcome State Fault Refusal :=
  if s.busy then .next (accessError (noAnswer s))
  else if s.nIbuf ≤ i then .next (accessError (noAnswer s))
  else .next (storeIbuf i b (noAnswer s))

/-- IbufRead (43_control_and_host.md R197); allowed while BUSY = 1. -/
def ibufRead (i : Nat) (s : State) : Host.Outcome State Fault Refusal :=
  if s.nIbuf ≤ i then .next (invalidRead (.byte 0#8) s)
  else
    match Memory.read s.ibuf i with
    | none => .fault .uninitRead
    | some b => .next (answer (.byte b) s)

/-- ObufRead (43_control_and_host.md R198). -/
def obufRead (i : Nat) (s : State) : Host.Outcome State Fault Refusal :=
  if maxFrame ≤ i then .next (invalidRead (.byte 0#8) s)
  else if s.busy then .next (answerFreeByte s)
  else
    match Memory.read s.obuf i with
    | none => .fault .uninitRead
    | some b => .next (answer (.byte b) s)

/-- RbufRead (43_control_and_host.md R199). A KIND of 0b11 inside the result range is a model fault
(30_encoding.md R100). -/
def rbufRead (i : Nat) (s : State) : Host.Outcome State Fault Refusal :=
  if s.nIbuf ≤ i then .next (invalidRead (.word 0#32) s)
  else if s.busy then .next (answerFreeWord s)
  else
    match Memory.read s.rbuf i with
    | none => .fault .uninitRead
    | some d =>
      if descKind d = 0b11#2 ∧ i < s.resCount.toNat then .fault .reservedKind
      else .next (answer (.word d) s)

/-- One host access, one atomic transition (43_control_and_host.md section 3). -/
def hostAccess (a : HostAccess) (s : State) : Host.Outcome State Fault Refusal :=
  match a with
  | .regRead off => regRead off s
  | .regWrite off v => regWrite off v s
  | .ibufWrite i b => ibufWrite i b s
  | .ibufRead i => ibufRead i s
  | .obufRead i => obufRead i s
  | .rbufRead i => rbufRead i s

end Sys2Proof.Machine
end

