-- ==== Sys2Proof/Machine/Agents.lean ====
section
/-! DEFINITION. The turns of the two agents (10_state.md R20): the engine's completion step, the host's next access, and
whose turn it is. -/

namespace Sys2Proof.Machine

/-- The engine's turn: the completion step of `pending` while BUSY = 1, nothing while BUSY = 0
(43_control_and_host.md R201, 60_exceptions.md R235). -/
def engineTurn (s : State) : Host.Outcome State Fault Refusal :=
  if s.busy then exec s.pending.toInstr s else .next s

/-- The host's turn: the next item of its script. WAIT reads STATUS and stays while BUSY reads 1 (30_encoding.md R103);
a host whose script has ended does nothing (43_control_and_host.md R202). -/
def hostTurn (s : State) : Host.Outcome State Fault Refusal :=
  match s.script with
  | [] => .next s
  | .access a :: rest => hostAccess a (setScript rest s)
  | .wait :: rest => hostAccess (.regRead Reg.status.offset) (setScript (if s.busy then .wait :: rest else rest) s)

/-- Who moves next: the schedule says (20_memory.md R72). Past its end the engine moves whenever it is enabled, so every
enabled engine step is taken in the end (70_reset_and_hazards.md R259; log 1). -/
def nextAgent (s : State) : Agent :=
  match s.schedule with
  | a :: _ => a
  | [] => if s.busy then .engine else .host

/-- The state after the schedule's next entry is used. -/
def takeTurn (s : State) : State := { s with schedule := s.schedule.tail }

/-- The turn of an agent. -/
def turnOf (a : Agent) (s : State) : Host.Outcome State Fault Refusal :=
  match a with
  | .host => hostTurn s
  | .engine => engineTurn s

/-- A CMD write of `w` as the host's next access, with the block idle and the host next to move, so that the next step
decodes and runs it (log 13). -/
def placeCommand (s : State) (w : Word) : State :=
  { s with
    busy := false
    script := .access (.regWrite Reg.cmd.offset w) :: s.script
    schedule := .host :: s.schedule }

end Sys2Proof.Machine
end

