-- ==== Sys2Proof/Machine/Step.lean ====
section
/-! DEFINITION. One step of the block: one turn of one agent. -/

namespace Sys2Proof.Machine

/-- One step: the agent whose turn it is makes its move (10_state.md R20, 20_memory.md R68, R72). -/
def step (s : State) : Host.Outcome State Fault Refusal := turnOf (nextAgent s) (takeTurn s)

/-- The state whose next step is a CMD write of the given word (30_encoding.md R95; log 13). A word has 32 bits, so the
number of bits the table gives says nothing more. -/
def State.withFetchWord (s : State) (nbits w : Nat) : State :=
  placeCommand s (BitVec.ofNat 32 (w % 2 ^ nbits))

end Sys2Proof.Machine
end

