-- ==== Sys2Proof/Safety.lean ====
section
/-! DEFINITION. What claims about the block are stated in: the invariant of its states, what a careful host does, and
when a script has ended. -/

namespace Sys2Proof.Machine

/-- N_IBUF is a legal parameter (00_scope.md R10). -/
abbrev State.ParamOk (s : State) : Prop := 258 ≤ s.nIbuf ∧ s.nIbuf ≤ 2 ^ 22

/-- The length registers hold values that a write or a command can give them (10_state.md R25, R28, R29). -/
abbrev State.LengthsOk (s : State) : Prop :=
  s.inLen.toNat ≤ s.nIbuf ∧ (s.outLen = 0#9 ∨ (3 ≤ s.outLen.toNat ∧ s.outLen.toNat ≤ maxFrame)) ∧
    s.resCount.toNat ≤ s.nIbuf

/-- STATUS is consistent: ERRCODE is 0, 1 or 2 and is 0 exactly when ERR = 0; ERR and VALID exclude each other and stand
only with DONE = 1; all four are 0 while BUSY = 1 (10_state.md R24, 60_exceptions.md R220, 20_memory.md R72). -/
abbrev State.StatusOk (s : State) : Prop :=
  s.errCode.toNat ≤ 2 ∧ (s.err = false ↔ s.errCode = 0#4) ∧ (s.err = true → s.done = true) ∧
    (s.valid = true → s.done = true ∧ s.err = false) ∧
    (s.busy = true → s.done = false ∧ s.err = false ∧ s.valid = false)

/-- The buffers are in canonical form and list only indices that exist (20_memory.md R60). -/
abbrev State.BuffersOk (s : State) : Prop :=
  (Memory.wf (w := 8) s.ibuf ∧ ∀ c ∈ s.ibuf, c.1 < s.nIbuf) ∧
    (Memory.wf (w := 8) s.obuf ∧ ∀ c ∈ s.obuf, c.1 < maxFrame) ∧
    (Memory.wf s.rbuf ∧ ∀ c ∈ s.rbuf, c.1 < s.nIbuf)

/-- Every entry of the result ranges OBUF[0..OUT_LEN-1] and RBUF[0..RES_COUNT-1] is written, and no descriptor has the
reserved KIND (10_state.md R28, R29, 30_encoding.md R100). -/
abbrev State.ResultsOk (s : State) : Prop :=
  (∀ i < s.outLen.toNat, Memory.written (w := 8) s.obuf i = true) ∧
    (∀ i < s.resCount.toNat, Memory.written s.rbuf i = true) ∧ (∀ c ∈ s.rbuf, descKind c.2 ≠ 0b11#2)

/-- The invariant of the block's states. -/
structure State.Inv (s : State) : Prop where
  param : s.ParamOk
  lengths : s.LengthsOk
  status : s.StatusOk
  buffers : s.BuffersOk
  results : s.ResultsOk

/-- The input slice IBUF[0..IN_LEN-1] is written (43_control_and_host.md R200, "load input"). -/
abbrev State.InputWritten (s : State) : Prop :=
  ∀ i < s.inLen.toNat, Memory.written (w := 8) s.ibuf i = true

/-- IN is the byte sequence `p`: the input slice IBUF[0..IN_LEN-1] is written and holds it (20_memory.md R61). -/
abbrev State.InputIs (s : State) (p : List Byte) : Prop :=
  p.length = s.inLen.toNat ∧ ∀ i < p.length, Memory.read (w := 8) s.ibuf i = p[i]?

/-- The command in flight meets its input: the slice is written, or it is an over-long ENCODE, which reads none of it
(70_reset_and_hazards.md R256). -/
abbrev State.FlightReady (s : State) : Prop :=
  s.busy = true → s.InputWritten ∨ (s.pending = .encode ∧ maxPayload < s.inLen.toNat)

/-- What a host access must respect (43_control_and_host.md R200, column "host must"): start a command only over a
written input slice, and read the outputs only while BUSY = 0 and only inside the result ranges. DESIGN CHOICE, log 20: the
condition on `ibufRead`, that the byte is written, is the model's own addition, not the column's: the column lists no
condition on a read of IBUF, and R197 makes a read of an unwritten byte the model fault UNINIT_READ. Accesses at invalid offsets and indices, and writes at any time, are free: the block answers them. -/
abbrev HostMust (s : State) : HostAccess → Prop
  | .regRead off => s.busy = true → ∀ r, Reg.ofOffset off = some r → outputReg r = false
  | .regWrite off v =>
    Reg.ofOffset off = some .cmd → s.busy = false → ∀ i, decode v = .ok i → i ≠ .softReset → s.InputWritten
  | .ibufWrite _ _ => True
  | .ibufRead i => i < s.nIbuf → Memory.written (w := 8) s.ibuf i = true
  | .obufRead i => i < maxFrame → s.busy = false ∧ i < s.outLen.toNat
  | .rbufRead i => i < s.nIbuf → s.busy = false ∧ i < s.resCount.toNat

/-- The next item of the host's script respects `HostMust`; WAIT only reads STATUS, which is free. -/
abbrev State.HostCareful (s : State) : Prop :=
  ∀ a rest, s.script = .access a :: rest → HostMust s a

/-- The invalid host accesses, those that raise AccessError (60_exceptions.md R225): a REG offset that is no register's, a
write to a read-only register, a length out of range, an index out of range, and any write but SOFT_RESET while
BUSY = 1. -/
abbrev AccessInvalid (s : State) : HostAccess → Prop
  | .regRead off => Reg.ofOffset off = none
  | .regWrite off v =>
    (s.busy = true ∧ ¬ (off = 0x00 ∧ v = 0x0000000F#32)) ∨ Reg.ofOffset off = none ∨ off ∈ [0x10, 0x14, 0x18, 0x1C] ∨
      (off = 0x08 ∧ s.nIbuf < v.toNat) ∨ (off = 0x0C ∧ 255 < v.toNat)
  | .ibufWrite i _ => s.busy = true ∨ s.nIbuf ≤ i
  | .ibufRead i => s.nIbuf ≤ i
  | .obufRead i => maxFrame ≤ i
  | .rbufRead i => s.nIbuf ≤ i

/-- A host script has ended: its last access is done and BUSY = 0 (43_control_and_host.md R202). -/
def State.ended (s : State) : Bool := s.script.isEmpty && !s.busy

/-- The next step is a host access that clears AERR: a reset, or a write to STATUS with bit 8 = 1 while BUSY = 0
(10_state.md R24). -/
def clearsAerr (s : State) : HostAccess → Bool
  | .regWrite off v =>
    (off == Reg.cmd.offset && v == encode .softReset) || (off == Reg.status.offset && !s.busy && v.getLsbD 8)
  | .regRead _ => false
  | .ibufWrite _ _ => false
  | .ibufRead _ => false
  | .obufRead _ => false
  | .rbufRead _ => false

/-- A host access that is a SOFT_RESET (43_control_and_host.md R190). -/
def isSoftReset : HostAccess → Bool
  | .regWrite off v => off == Reg.cmd.offset && v == encode .softReset
  | .regRead _ => false
  | .ibufWrite _ _ => false
  | .ibufRead _ => false
  | .obufRead _ => false
  | .rbufRead _ => false

end Sys2Proof.Machine
end

