-- ==== Sys2Proof/Certificates/Slice0/Obligations.lean ====
section
/-! DEFINITION. The statements for the provers. Each docstring names the rule of spec/ it formalises. -/

open Sys2Proof Sys2Proof.Machine

/-! ### Encodings (30_encoding.md) -/

/-- 30_encoding.md R96: each row of the command map is selected by the whole 32-bit word, and by no other word. -/
def Obligations.CommandMapIsExact : Prop :=
  ∀ w : Word,
    (decode w = .ok .encode ↔ w = 0x00000001#32) ∧
    (decode w = .ok .checksum ↔ w = 0x00000002#32) ∧
    (decode w = .ok .validate ↔ w = 0x00000003#32) ∧
    (decode w = .ok .scan ↔ w = 0x00000004#32) ∧
    (decode w = .ok .softReset ↔ w = 0x0000000F#32)

/-- The encoder and the decoder agree on every command (30_encoding.md section 2). -/
def Obligations.DecodeOfEncode : Prop :=
  ∀ i : Instr, decode (encode i) = .ok i ∧ decodeTableWord 32 (encode i).toNat = some i

/-- Words written out from the table of 30_encoding.md section 2: bit by bit, they decode to their commands, and three
near misses of 95_test_vectors.md (V-CTL-1 to V-CTL-3) to none. -/
def Obligations.WrittenWordsDecode : Prop :=
  decode 0b00000000000000000000000000000001#32 = .ok .encode ∧
  decode 0b00000000000000000000000000000010#32 = .ok .checksum ∧
  decode 0b00000000000000000000000000000011#32 = .ok .validate ∧
  decode 0b00000000000000000000000000000100#32 = .ok .scan ∧
  decode 0b00000000000000000000000000001111#32 = .ok .softReset ∧
  decode 0x00000000#32 = .error .unassignedOp ∧
  decode 0x00000011#32 = .error .reservedBits ∧
  decode 0x0000001F#32 = .error .reservedBits

/-- 30_encoding.md R99, with 43_control_and_host.md R191: every word that is not in the command map names no command; a
1 in [31:4] makes a word illegal whatever its OP; written to CMD while BUSY = 0 it is rejected as ILLEGAL_OP (R191: VALID
0, ERR 1, ERRCODE 2, DONE 1, BUSY stays 0, nothing else changes); written while BUSY = 1 it is dropped with AccessError.
`reply` is the model's own field: a write returns nothing (log 2). -/
def Obligations.IllegalWordsAreRejected : Prop :=
  (∀ w : Word, 16 ≤ w.toNat → decode w = .error .reservedBits) ∧
  (∀ w : Word, w.toNat = 0 ∨ (5 ≤ w.toNat ∧ w.toNat ≤ 14) → decode w = .error .unassignedOp) ∧
  ∀ (w : Word) (s : State),
    w ≠ 0x1#32 → w ≠ 0x2#32 → w ≠ 0x3#32 → w ≠ 0x4#32 → w ≠ 0xF#32 →
    (s.busy = false →
      hostAccess (.regWrite 0x00 w) s =
        .next { s with valid := false, err := true, errCode := 2#4, done := true, reply := none }) ∧
    (s.busy = true →
      hostAccess (.regWrite 0x00 w) s = .next { s with aerr := true, reply := none })

/-- 42_frame_scanner.md R167: the descriptor of an entry, by the rule's formula; its offset is below 2^22 because it is
below N_IBUF. -/
def Obligations.DescriptorFormula : Prop :=
  ∀ (off : Nat) (b : Byte), off < 2 ^ 22 →
    desc (.raw off b) = (0#32 <<< 30) ||| (BitVec.ofNat 32 off <<< 8) ||| b.setWidth 32 ∧
    desc (.frame .ok off b) = (1#32 <<< 30) ||| (BitVec.ofNat 32 off <<< 8) ||| b.setWidth 32 ∧
    desc (.frame .bad off b) = (2#32 <<< 30) ||| (BitVec.ofNat 32 off <<< 8) ||| b.setWidth 32

/-- The descriptor loses nothing: reading its three fields (30_encoding.md section 3) gives the entry back, for every
entry whose offset fits the OFFSET field. -/
def Obligations.DescriptorRoundTrip : Prop :=
  ∀ e : Entry, entryOffset e < 2 ^ 22 → entryOfDesc (desc e) = some e

/-- 30_encoding.md R100: the engine never writes KIND 0b11 (no command adds a descriptor of that KIND to RBUF), and a
host that reads one from RBUF[i] with i < RES_COUNT while BUSY = 0 gets a model fault, never a value. -/
def Obligations.ReservedKindIsNeverWritten : Prop :=
  (∀ (i : Instr) (s t : State) (a : Nat) (d : Word), exec i s = .next t →
    Memory.read t.rbuf a = some d → descKind d = 0b11#2 → Memory.read s.rbuf a = some d) ∧
  (∀ (s : State) (a : Nat) (d : Word), s.busy = false → a < s.nIbuf → Memory.read s.rbuf a = some d →
    descKind d = 0b11#2 → a < s.resCount.toNat → hostAccess (.rbufRead a) s = .fault .reservedKind)

/-- The pseudo-instructions' expansions (30_encoding.md section 5): LOAD writes byte k of its list to IBUF[k] and then IN_LEN.
The two clauses about WAIT rest on the model's choice (log 11, DESIGN CHOICE): the spec's WAIT repeats reads of STATUS, and
the model holds it as one script line, each turn of which is one such read and which stays as long as BUSY = 1. That the
reads end, and with a read of BUSY = 0, is `WaitEnds`. -/
def Obligations.PseudoExpansions : Prop :=
  Pseudo.expand .encode = [.access (.regWrite 0x00 0x1#32)] ∧
  Pseudo.expand .checksum = [.access (.regWrite 0x00 0x2#32)] ∧
  Pseudo.expand .validate = [.access (.regWrite 0x00 0x3#32)] ∧
  Pseudo.expand .scan = [.access (.regWrite 0x00 0x4#32)] ∧
  Pseudo.expand .srst = [.access (.regWrite 0x00 0xF#32)] ∧
  Pseudo.expand .clrAerr = [.access (.regWrite 0x04 0x100#32)] ∧
  (∀ bs : List Byte, (Pseudo.expand (.load bs)).length = bs.length + 1 ∧
    (∀ (k : Nat) (b : Byte), bs[k]? = some b →
      (Pseudo.expand (.load bs))[k]? = some (.access (.ibufWrite k b))) ∧
    (Pseudo.expand (.load bs))[bs.length]? =
      some (.access (.regWrite 0x08 (BitVec.ofNat 32 bs.length)))) ∧
  Pseudo.expand .wait = [.wait] ∧
  (∀ (s : State) (rest : List ScriptItem), s.script = .wait :: rest →
    hostTurn s = hostAccess (.regRead 0x04) { s with script := if s.busy then .wait :: rest else rest })

/-! ### The checksum and the encoder (40_frame_encoder.md) -/

/-- 40_frame_encoder.md R120: the checksum's formula over unsigned bytes; reducing the running sum modulo 256 after every
addition (8-bit addition) gives the same result; the length operand and the payload's length are unrelated. -/
def Obligations.ChecksumFormula : Prop :=
  ∀ (len : Byte) (payload : List Byte),
    (checksum len payload).toNat = (256 - (len.toNat + (payload.map BitVec.toNat).sum) % 256) % 256 ∧
    checksum len payload = 0#8 - payload.foldl (· + ·) len

/-- The checksum is the one byte that makes the whole sum 0 modulo 256. It rests on the spec's own inference from the
checksum formula (40_frame_encoder.md section 1: "Equivalently, (length + Σ payload + checksum(length, payload)) mod 256
= 0"). -/
def Obligations.ChecksumCancelsTheSum : Prop :=
  ∀ (len c : Byte) (payload : List Byte),
    c = checksum len payload ↔ (len.toNat + (payload.map BitVec.toNat).sum + c.toNat) % 256 = 0

/-- Changing one bit of the length or of a payload byte changes the checksum. It rests on the spec's own inference
(40_frame_encoder.md section 1: "Changing any single bit of the length or of any payload byte changes"). -/
def Obligations.ChecksumDetectsBitFlips : Prop :=
  ∀ (len : Byte) (payload : List Byte) (k : Nat), k < 8 →
    checksum (len ^^^ (1#8 <<< k)) payload ≠ checksum len payload ∧
    ∀ (i : Nat) (b : Byte), payload[i]? = some b →
      checksum len (payload.set i (b ^^^ (1#8 <<< k))) ≠ checksum len payload

/-- Payloads with equal sums modulo 256 have equal checksums, so the order of the bytes does not matter. It rests on the
spec's own inference (40_frame_encoder.md section 1: "Reordering payload bytes does not change the checksum"). -/
def Obligations.ChecksumIgnoresOrder : Prop :=
  ∀ (len : Byte) (p q : List Byte),
    ((p.map BitVec.toNat).sum % 256 = (q.map BitVec.toNat).sum % 256 → checksum len p = checksum len q) ∧
    (p.Perm q → checksum len p = checksum len q)

/-- 40_frame_encoder.md R124: the encode function; `none` is Error(INVALID_PAYLOAD_SIZE). -/
def Obligations.EncodeFunction : Prop :=
  ∀ p : List Byte,
    (p.length ≤ 255 →
      encodeFrame p = some ([0x02#8, BitVec.ofNat 8 p.length] ++ p ++ [checksum (BitVec.ofNat 8 p.length) p]) ∧
      ∃ f, encodeFrame p = some f ∧ f.length = p.length + 3) ∧
    (255 < p.length → encodeFrame p = none)

/-- 40_frame_encoder.md R125: the completion step of ENCODE over the input `p`. On success OBUF[0..L+2] holds
02, L, p and the checksum, OUT_LEN is L + 3, CSUM is the checksum, BUSY is 0 and DONE is 1, every other OBUF byte and every
other field is unchanged. Over an unwritten byte it is the model fault UNINIT_INPUT, and an over-long input raises
INVALID_PAYLOAD_SIZE before IBUF is read. The first lines are the rule's corner cases and its example. -/
def Obligations.EncodeCompletes : Prop :=
  decode 0x00000001#32 = .ok .encode ∧
  encodeFrame [] = some [0x02#8, 0x00#8, 0x00#8] ∧
  encodeFrame [0x02#8] = some [0x02#8, 0x01#8, 0x02#8, 0xFD#8] ∧
  encodeFrame [0xFF#8] = some [0x02#8, 0x01#8, 0xFF#8, 0x00#8] ∧
  encodeFrame [0xA0#8, 0x60#8, 0x00#8, 0x01#8] = some [0x02#8, 0x04#8, 0xA0#8, 0x60#8, 0x00#8, 0x01#8, 0xFB#8] ∧
  ∀ s : State, s.busy = true →
    (∀ p : List Byte, s.InputIs p → p.length ≤ 255 →
      ∃ t, exec .encode s = .next t ∧
        (∀ i < p.length + 3, Memory.read (w := 8) t.obuf i =
          ([0x02#8, BitVec.ofNat 8 p.length] ++ p ++ [checksum (BitVec.ofNat 8 p.length) p])[i]?) ∧
        (∀ i, p.length + 3 ≤ i → Memory.read (w := 8) t.obuf i = Memory.read (w := 8) s.obuf i) ∧
        t.outLen.toNat = p.length + 3 ∧
        t = { s with
              obuf := t.obuf, outLen := t.outLen, csum := checksum (BitVec.ofNat 8 p.length) p,
              busy := false, done := true }) ∧
    (s.inLen.toNat ≤ 255 → ¬ s.InputWritten → exec .encode s = .fault .uninitInput) ∧
    (255 < s.inLen.toNat →
      ∃ t, exec .encode s = .next t ∧ t.err = true ∧ t.errCode = 0x1#4)

/-- 40_frame_encoder.md R126: an ENCODE with IN_LEN > 255 ends in INVALID_PAYLOAD_SIZE, whatever IBUF holds: ERR 1,
ERRCODE 1, OUT_LEN 0, BUSY 0, DONE 1; no OBUF byte is written, CSUM and every other register keep their values. -/
def Obligations.EncodeTooLong : Prop :=
  ∀ s : State, s.busy = true → 255 < s.inLen.toNat →
    exec .encode s =
      .next { s with err := true, errCode := 0x1#4, outLen := 0#9, busy := false, done := true }

/-- The frame of ENCODE, in both of its phases (43_control_and_host.md sections 2 and 5, 40_frame_encoder.md section 4):
it changes nothing but the STATUS fields named there, `pending` (at acceptance), OUT_LEN, CSUM and the OBUF bytes 0..L+2 of
a successful completion. -/
def Obligations.EncodeChangesOnlyItsOutputs : Prop :=
  ∀ s t : State, exec .encode s = .next t →
    t.aerr = s.aerr ∧ t.inLen = s.inLen ∧ t.csLen = s.csLen ∧ t.resCount = s.resCount ∧ t.param = s.param ∧
    t.ibuf = s.ibuf ∧ t.rbuf = s.rbuf ∧
    t.script = s.script ∧ t.schedule = s.schedule ∧ t.reply = s.reply ∧ t.draws = s.draws ∧
    (s.busy = false → t.csum = s.csum ∧ t.outLen = s.outLen ∧ t.obuf = s.obuf) ∧
    (s.busy = true → t.pending = s.pending ∧ t.valid = s.valid ∧
      (255 < s.inLen.toNat → t.csum = s.csum) ∧
      (s.inLen.toNat ≤ 255 → t.err = s.err ∧ t.errCode = s.errCode)) ∧
    (∀ a, ¬ (s.busy = true ∧ s.inLen.toNat ≤ 255 ∧ a < s.inLen.toNat + 3) →
      Memory.read (w := 8) t.obuf a = Memory.read (w := 8) s.obuf a)

/-- 40_frame_encoder.md R123: the completion step of CHECKSUM over the input `p`: CSUM takes checksum(CS_LEN, p), BUSY is 0
and DONE is 1, nothing else changes; over an unwritten byte it is the model fault UNINIT_INPUT. Every CS_LEN and IN_LEN is
legal. The first lines are the rule's corner cases and its example. -/
def Obligations.ChecksumCompletes : Prop :=
  decode 0x00000002#32 = .ok .checksum ∧
  checksum 0x00#8 [] = 0x00#8 ∧
  checksum 0x05#8 [0xA0#8] = 0x5B#8 ∧
  checksum 0x04#8 [0xA0#8, 0x60#8, 0x00#8, 0x01#8] = 0xFB#8 ∧
  ∀ s : State, s.busy = true →
    (∀ p : List Byte, s.InputIs p →
      exec .checksum s = .next { s with csum := checksum s.csLen p, busy := false, done := true }) ∧
    (¬ s.InputWritten → exec .checksum s = .fault .uninitInput)

/-! ### The decoder (41_frame_decoder.md) -/

/-- 41_frame_decoder.md R140: validate's four checks, and that bytes past the declared frame do not affect the result (for
inputs that hold the declared frame and pass the 4-byte floor). -/
def Obligations.ValidateChecks : Prop :=
  (∀ f : List Byte, validate f = true ↔
    4 ≤ f.length ∧ f[0]? = some 0x02#8 ∧
    ∃ len : Byte, f[1]? = some len ∧ 2 + len.toNat < f.length ∧
      f[2 + len.toNat]? = some (checksum len ((f.drop 2).take len.toNat))) ∧
  (∀ (f g : List Byte) (len : Byte), 4 ≤ f.length → 4 ≤ g.length → f[1]? = some len →
    3 + len.toNat ≤ f.length → 3 + len.toNat ≤ g.length →
    f.take (3 + len.toNat) = g.take (3 + len.toNat) → validate f = validate g)

/-- 41_frame_decoder.md R142: the completion step of VALIDATE over the input `f`: VALID takes validate(f), BUSY is 0 and
DONE is 1, nothing else changes; over an unwritten byte of the input slice it is the model fault UNINIT_INPUT. The first
lines are the rule's corner cases and its example. -/
def Obligations.ValidateCompletes : Prop :=
  decode 0x00000003#32 = .ok .validate ∧
  (∀ f : List Byte, f.length ≤ 3 → validate f = false) ∧
  validate [0x02#8, 0x00#8, 0x00#8] = false ∧
  (∀ x : Byte, validate [0x02#8, 0x00#8, 0x00#8, x] = true) ∧
  validate [0x02#8, 0x05#8, 0xA0#8, 0x60#8, 0x00#8, 0x01#8, 0xFB#8] = false ∧
  (∀ (b : Byte) (f : List Byte), b ≠ 0x02#8 → validate (b :: f) = false) ∧
  (∀ f g : List Byte, validate f = true → validate (f ++ g) = true) ∧
  validate [0x02#8, 0x04#8, 0xA0#8, 0x60#8, 0x00#8, 0x01#8, 0xFB#8] = true ∧
  ∀ s : State, s.busy = true →
    (∀ f : List Byte, s.InputIs f →
      exec .validate s = .next { s with valid := validate f, busy := false, done := true }) ∧
    (¬ s.InputWritten → exec .validate s = .fault .uninitInput)

/-- The frame of CHECKSUM and VALIDATE, in both of their phases (43_control_and_host.md sections 2 and 5): neither stores
to a buffer; CHECKSUM changes no register but CSUM, VALIDATE none but STATUS; beside STATUS and CSUM only `pending`
changes, at acceptance. -/
def Obligations.RegisterCommandsChangeNoBuffer : Prop :=
  ∀ (i : Instr) (s t : State), i = .checksum ∨ i = .validate → exec i s = .next t →
    t.aerr = s.aerr ∧ t.inLen = s.inLen ∧ t.csLen = s.csLen ∧ t.outLen = s.outLen ∧ t.resCount = s.resCount ∧
    t.param = s.param ∧ t.script = s.script ∧ t.schedule = s.schedule ∧ t.reply = s.reply ∧ t.draws = s.draws ∧
    (i = .validate ∨ s.busy = false → t.csum = s.csum) ∧
    (s.busy = true → t.pending = s.pending ∧ t.err = s.err ∧ t.errCode = s.errCode ∧
      (i = .checksum → t.valid = s.valid)) ∧
    (∀ a, Memory.read (w := 8) t.ibuf a = Memory.read (w := 8) s.ibuf a) ∧
    (∀ a, Memory.read (w := 8) t.obuf a = Memory.read (w := 8) s.obuf a) ∧
    (∀ a, Memory.read t.rbuf a = Memory.read s.rbuf a)

/-- The decoder and the scanner agree on a slice that is exactly one frame, but for the 4-byte floor. It rests on the
spec's own inference (41_frame_decoder.md section 2: "exactly the slice the scanner emits as one frame"). -/
def Obligations.ValidateAgreesWithScanTag : Prop :=
  ∀ (f : List Byte) (len : Byte), f[0]? = some 0x02#8 → f[1]? = some len → f.length = len.toNat + 3 →
    ∃ tag, scan f = [.frame tag 0 len] ∧
      (4 ≤ f.length → (validate f = true ↔ tag = .ok)) ∧
      (f.length = 3 → validate f = false ∧ (tag = .ok ↔ f[2]? = some 0x00#8))

/-- VALIDATE accepts every encoded frame of a payload of 1 to 255 bytes, rejects the frame of the empty payload, and
rejects a valid frame after any one payload bit flips. It rests on the spec's own inference (41_frame_decoder.md section 2:
"Flipping any one bit of any payload byte of a valid frame makes `validate` false"). -/
def Obligations.ValidateOfEncodedFrame : Prop :=
  (∀ p f : List Byte, 1 ≤ p.length → encodeFrame p = some f → validate f = true) ∧
  (∃ f, encodeFrame [] = some f ∧ validate f = false) ∧
  (∀ (f : List Byte) (len b : Byte) (i k : Nat), validate f = true → f[1]? = some len →
    2 ≤ i → i < 2 + len.toNat → f[i]? = some b → k < 8 →
    validate (f.set i (b ^^^ (1#8 <<< k))) = false)

/-! ### The scanner (42_frame_scanner.md) -/

/-- 42_frame_scanner.md R160: scan is one left-to-right pass with one cursor: from a cursor inside the buffer it emits one
entry and goes on behind it, at the end of the buffer it stops; the entry is a Frame where a start byte, two more bytes and
the declared checksum byte are there, and a Raw byte otherwise. -/
def Obligations.ScanIsOnePass : Prop :=
  ∀ buf : List Byte,
    scan buf = scanFrom buf 0 ∧
    (∀ c, buf.length ≤ c → scanFrom buf c = []) ∧
    ∀ (c : Nat) (b : Byte), buf[c]? = some b →
      (∀ len e : Byte, b = 0x02#8 → c + 2 < buf.length → buf[c + 1]? = some len → buf[c + 2 + len.toNat]? = some e →
        scanFrom buf c =
          .frame (if e = checksum len ((buf.drop (c + 2)).take len.toNat) then .ok else .bad) c len ::
            scanFrom buf (c + 2 + len.toNat + 1)) ∧
      (¬ (b = 0x02#8 ∧ c + 2 < buf.length ∧
          ∃ len : Byte, buf[c + 1]? = some len ∧ c + 2 + len.toNat < buf.length) →
        scanFrom buf c = .raw c b :: scanFrom buf (c + 1))

/-- 42_frame_scanner.md R161: the three cases in which the byte at the cursor is emitted as Raw and the cursor advances by
exactly 1. -/
def Obligations.RawEmission : Prop :=
  ∀ (buf : List Byte) (c : Nat) (b : Byte), buf[c]? = some b →
    (b ≠ 0x02#8 ∨ (b = 0x02#8 ∧ buf.length ≤ c + 2) ∨
      (b = 0x02#8 ∧ c + 2 < buf.length ∧
        ∃ len : Byte, buf[c + 1]? = some len ∧ buf.length ≤ c + 2 + len.toNat)) →
    scanFrom buf c = .raw c b :: scanFrom buf (c + 1)

/-- 42_frame_scanner.md R162 and R163: where the declared frame fits, one Frame entry spanning it is emitted, the cursor
advances past it whatever the tag, and the tag is OK exactly when the checksum byte matches (a frame of length 0 too:
02 00 00 is OK). -/
def Obligations.FrameEmission : Prop :=
  (∀ (buf : List Byte) (c : Nat) (len e : Byte), buf[c]? = some 0x02#8 → buf[c + 1]? = some len →
    buf[c + 2 + len.toNat]? = some e →
    ∃ tag, scanFrom buf c = .frame tag c len :: scanFrom buf (c + 2 + len.toNat + 1) ∧
      entrySpan (.frame tag c len) = len.toNat + 3 ∧
      (tag = .ok ↔ e = checksum len ((buf.drop (c + 2)).take len.toNat)) ∧
      (tag = .bad ↔ e ≠ checksum len ((buf.drop (c + 2)).take len.toNat))) ∧
  scan [0x02#8, 0x00#8, 0x00#8] = [.frame .ok 0 0x00#8]

/-- 42_frame_scanner.md R164: the empty buffer has no entry; a buffer without 0x02, or with none that can start a fitting
frame, gives one Raw entry per byte, in order. -/
def Obligations.NoiseScansToRawBytes : Prop :=
  scan [] = [] ∧
  ∀ buf : List Byte,
    ((∀ b ∈ buf, b ≠ 0x02#8) ∨
      (∀ (c : Nat) (len : Byte), buf[c]? = some 0x02#8 → buf[c + 1]? = some len → buf.length ≤ c + 2 + len.toNat)) →
    (scan buf).length = buf.length ∧
    ∀ (c : Nat) (b : Byte), buf[c]? = some b → (scan buf)[c]? = some (.raw c b)

/-- Order and tiling (42_frame_scanner.md R165): offsets strictly increase, the first is 0, each next is the previous plus
its span, and the spans sum to the buffer's length. The last clause, that every byte of the buffer belongs to exactly one
entry, is no rule but the spec's own inference (42_frame_scanner.md section 1: "So every byte of `buf` belongs to exactly
one entry [derived: from rule R160]"). -/
def Obligations.ScanTilesTheBuffer : Prop :=
  ∀ buf : List Byte,
    ((scan buf).map entryOffset).Pairwise (· < ·) ∧
    (∀ e, (scan buf)[0]? = some e → entryOffset e = 0) ∧
    (∀ (k : Nat) (e e' : Entry), (scan buf)[k]? = some e → (scan buf)[k + 1]? = some e' →
      entryOffset e' = entryOffset e + entrySpan e) ∧
    ((scan buf).map entrySpan).sum = buf.length ∧
    (∀ c < buf.length, ∃ (k : Nat) (e : Entry),
      (scan buf)[k]? = some e ∧ entryOffset e ≤ c ∧ c < entryOffset e + entrySpan e ∧
      ∀ (k' : Nat) (e' : Entry),
        (scan buf)[k']? = some e' → entryOffset e' ≤ c → c < entryOffset e' + entrySpan e' → k' = k)

/-- A scan has at most one entry per byte, with equality exactly when every entry is Raw. It rests on the spec's own
inference (42_frame_scanner.md section 3: "Equality holds exactly when every entry is Raw"). -/
def Obligations.ScanLengthBound : Prop :=
  ∀ buf : List Byte,
    (scan buf).length ≤ buf.length ∧
    ((scan buf).length = buf.length ↔ ∀ e ∈ scan buf, ∃ off b, e = .raw off b)

/-- The round trip of encoder and scanner, for every payload of 0 to 255 bytes: scanning the encoded frame gives exactly
one OK frame at offset 0, and reading it back from a buffer that holds the frame's bytes gives the payload. It rests on the
spec's own inference (40_frame_encoder.md section 4: "Every successful ENCODE output is a structurally complete frame whose
checksum matches"). -/
def Obligations.ScanOfEncodedFrame : Prop :=
  ∀ (p f : List Byte), encodeFrame p = some f →
    scan f = [.frame .ok 0 (BitVec.ofNat 8 p.length)] ∧
    ∀ m : Memory 8, (∀ i < f.length, Memory.read m i = f[i]?) →
      ∃ fr : Frame, decodeView m (desc (.frame .ok 0 (BitVec.ofNat 8 p.length))) = some fr ∧
        fr.startByte = 0x02#8 ∧ fr.length.toNat = p.length ∧ fr.payload = p ∧
        fr.checksum = checksum fr.length p ∧ Frame.complete fr = true

/-- 42_frame_scanner.md R166: the completion step of SCAN over the input `buf`: RBUF[0..n-1] holds the descriptors of
scan(buf), RES_COUNT is n, BUSY is 0 and DONE is 1, every other RBUF entry and every other field is unchanged; over an
unwritten byte it is the model fault UNINIT_INPUT. The first lines are the rule's corner cases, each on its vector of
95_test_vectors.md (V-SCN-1 to V-SCN-4, V-SCN-7, V-SCN-8, V-SCN-11, V-SCN-12), and its example. -/
def Obligations.ScanCompletes : Prop :=
  decode 0x00000004#32 = .ok .scan ∧
  (scan []).length = 0 ∧
  scan [0x02#8] = [.raw 0 0x02#8] ∧
  scan [0x02#8, 0x00#8] = [.raw 0 0x02#8, .raw 1 0x00#8] ∧
  scan [0x02#8, 0x00#8, 0x00#8] = [.frame .ok 0 0x00#8] ∧
  scan [0x02#8, 0x04#8, 0xA0#8, 0x60#8, 0x00#8, 0x01#8, 0xFC#8] = [.frame .bad 0 0x04#8] ∧
  scan [0x02#8, 0x03#8, 0xA0#8, 0x55#8, 0x00#8] =
    [.raw 0 0x02#8, .raw 1 0x03#8, .raw 2 0xA0#8, .raw 3 0x55#8, .raw 4 0x00#8] ∧
  scan [0x02#8, 0x10#8, 0x02#8, 0x00#8, 0x00#8] = [.raw 0 0x02#8, .raw 1 0x10#8, .frame .ok 2 0x00#8] ∧
  scan [0x02#8, 0x02#8, 0x04#8, 0xA0#8, 0x60#8, 0x00#8, 0x01#8, 0xFB#8] =
    [.frame .bad 0 0x02#8, .raw 5 0x00#8, .raw 6 0x01#8, .raw 7 0xFB#8] ∧
  (scan [0x02#8, 0x04#8, 0xA0#8, 0x60#8, 0x00#8, 0x01#8, 0xFB#8]).map desc = [0x40000004#32] ∧
  ∀ s : State, s.busy = true →
    (∀ buf : List Byte, s.InputIs buf →
      ∃ t, exec .scan s = .next t ∧
        (∀ k < (scan buf).length, Memory.read t.rbuf k = ((scan buf)[k]?).map desc) ∧
        (∀ k, (scan buf).length ≤ k → Memory.read t.rbuf k = Memory.read s.rbuf k) ∧
        t.resCount.toNat = (scan buf).length ∧
        t = { s with rbuf := t.rbuf, resCount := t.resCount, busy := false, done := true }) ∧
    (¬ s.InputWritten → exec .scan s = .fault .uninitInput)

/-- The frame of SCAN, in both of its phases (43_control_and_host.md sections 2 and 5, 42_frame_scanner.md section 2): it
changes nothing but the STATUS fields named there, `pending` (at acceptance), RES_COUNT and the RBUF entries 0..n-1 of a
completion, where n is the number of entries of the scan of its input. -/
def Obligations.ScanChangesOnlyItsOutputs : Prop :=
  ∀ s t : State, exec .scan s = .next t →
    t.aerr = s.aerr ∧ t.inLen = s.inLen ∧ t.csLen = s.csLen ∧ t.csum = s.csum ∧ t.outLen = s.outLen ∧
    t.param = s.param ∧ t.ibuf = s.ibuf ∧ t.obuf = s.obuf ∧
    t.script = s.script ∧ t.schedule = s.schedule ∧ t.reply = s.reply ∧ t.draws = s.draws ∧
    (s.busy = false → t.resCount = s.resCount ∧ t.rbuf = s.rbuf) ∧
    (s.busy = true → t.pending = s.pending ∧ t.err = s.err ∧ t.errCode = s.errCode ∧ t.valid = s.valid) ∧
    (∀ a, ¬ (s.busy = true ∧ ∃ bytes, inputBytes s = some bytes ∧ a < (scan bytes).length) →
      Memory.read t.rbuf a = Memory.read s.rbuf a)

/-- 42_frame_scanner.md R168: the decode view. After a SCAN that ends in `t`, in any state `u` that still holds its IBUF and
its results (no host write to IBUF since; `InputsHaveOneWriter` and `OutputsHaveOneWriter` say who writes them), every
descriptor of the result range denotes what it says: a frame descriptor's start byte, length, payload and checksum stand in
IBUF at its offset, and the KIND tells whether the checksum matches; a RAW descriptor's byte stands in IBUF at its
offset. -/
def Obligations.DecodeViewAfterScan : Prop :=
  ∀ s t u : State, s.busy = true → s.inLen.toNat ≤ 2 ^ 22 → exec .scan s = .next t →
    u.ibuf = t.ibuf → u.rbuf = t.rbuf → u.resCount = t.resCount →
    ∀ k < u.resCount.toNat, ∃ d, Memory.read u.rbuf k = some d ∧
      ((∃ b, descKind d = 0b00#2 ∧ b = descByte d ∧ Memory.read (w := 8) u.ibuf (descOffset d) = some b) ∨
       (∃ fr : Frame, (descKind d = 0b01#2 ∨ descKind d = 0b10#2) ∧ decodeView u.ibuf d = some fr ∧
          fr.startByte = 0x02#8 ∧ Memory.read (w := 8) u.ibuf (descOffset d) = some 0x02#8 ∧
          fr.length = descByte d ∧ Memory.read (w := 8) u.ibuf (descOffset d + 1) = some (descByte d) ∧
          fr.payload.length = (descByte d).toNat ∧
          (∀ j < (descByte d).toNat, Memory.read (w := 8) u.ibuf (descOffset d + 2 + j) = fr.payload[j]?) ∧
          Memory.read (w := 8) u.ibuf (descOffset d + 2 + (descByte d).toNat) = some fr.checksum ∧
          (descKind d = 0b01#2 ↔ fr.checksum = checksum fr.length fr.payload)))

/-! ### Control and the host port (43_control_and_host.md) -/

/-- 43_control_and_host.md R190 and 70_reset_and_hazards.md R251: SOFT_RESET, in any state: every STATUS field, IN_LEN,
CS_LEN, CSUM, OUT_LEN and RES_COUNT are 0, PARAM is kept, every written mark is cleared; a CMD write of exactly 0xF does it
also while BUSY = 1, and 0x1F does not name it. What `pending` becomes is a free value, and the statement says nothing of
it (log 4); `script` and `schedule` are the model's own and stay (log 1). -/
def Obligations.SoftResetResets : Prop :=
  decode 0x0000000F#32 = .ok .softReset ∧ decode 0x0000001F#32 = .error .reservedBits ∧
  ∀ s : State,
    (∃ t, exec .softReset s = .next t ∧
      statusWord t = 0x00000000#32 ∧ t.busy = false ∧ t.done = false ∧ t.err = false ∧ t.valid = false ∧
      t.errCode = 0#4 ∧ t.aerr = false ∧ t.inLen = 0#23 ∧ t.csLen = 0#8 ∧ t.csum = 0#8 ∧ t.outLen = 0#9 ∧
      t.resCount = 0#23 ∧ t.param = s.param ∧
      (∀ i, Memory.written (w := 8) t.ibuf i = false) ∧ (∀ i, Memory.written (w := 8) t.obuf i = false) ∧
      (∀ i, Memory.written t.rbuf i = false) ∧ t.script = s.script ∧ t.schedule = s.schedule) ∧
    hostAccess (.regWrite 0x00 0x0000000F#32) s = exec .softReset { s with reply := none }

/-- 43_control_and_host.md R193: acceptance of ENCODE, CHECKSUM, VALIDATE and SCAN, by a CMD write while BUSY = 0: `pending`
takes the operation, DONE, ERR, VALID and ERRCODE are cleared, BUSY is set, and nothing else changes (AERR neither). -/
def Obligations.CommandAcceptance : Prop :=
  ∀ s : State, s.busy = false → ∀ p : Word × Op,
    p ∈ [(0x1#32, Op.encode), (0x2#32, Op.checksum), (0x3#32, Op.validate), (0x4#32, Op.scan)] →
    hostAccess (.regWrite 0x00 p.1) s =
      .next { s with
              pending := p.2, done := false, err := false, valid := false, errCode := 0#4, busy := true,
              reply := none }

/-- 43_control_and_host.md R192: while BUSY = 1 every host write is dropped and sets AERR, but a CMD write of exactly
0x0000000F. -/
def Obligations.WritesWhileBusyAreDropped : Prop :=
  ∀ s : State, s.busy = true →
    (∀ (off : Nat) (v : Word), ¬ (off = 0x00 ∧ v = 0x0000000F#32) →
      hostAccess (.regWrite off v) s = .next { s with aerr := true, reply := none }) ∧
    (∀ (i : Nat) (b : Byte), hostAccess (.ibufWrite i b) s = .next { s with aerr := true, reply := none }) ∧
    (∃ t, hostAccess (.regWrite 0x00 0x0000000F#32) s = .next t ∧ t.busy = false)

/-- 10_state.md R31: a REG offset that is not in the register map (every offset that is not a multiple of 4 or is at or
beyond 0x100 is none of them) is an invalid access: a read returns 0, a write is dropped, and both set AERR and nothing
else. -/
def Obligations.InvalidOffsets : Prop :=
  (∀ off : Nat, off % 4 ≠ 0 ∨ 0x100 ≤ off → off ∉ [0x00, 0x04, 0x08, 0x0C, 0x10, 0x14, 0x18, 0x1C]) ∧
  ∀ (off : Nat) (s : State), off ∉ [0x00, 0x04, 0x08, 0x0C, 0x10, 0x14, 0x18, 0x1C] →
    hostAccess (.regRead off) s = .next { s with aerr := true, reply := some (.word 0#32) } ∧
    ∀ v : Word, hostAccess (.regWrite off v) s = .next { s with aerr := true, reply := none }

/-- 43_control_and_host.md R194: what a read of each register returns, with reserved bits 0: CMD reads 0; STATUS shows BUSY
[0], DONE [1], ERR [2], VALID [3], ERRCODE [7:4], AERR [8]; while BUSY = 1 CSUM, OUT_LEN and RES_COUNT return a fresh free
value, of which nothing is said; any other offset returns 0 and sets AERR. No other state changes (`reply` and `draws` are
the model's own). The STATUS read is of an ERRCODE at most 2, its values; the others `ReservedErrCodeStops` states. -/
def Obligations.RegReadValues : Prop :=
  ∀ s : State,
    hostAccess (.regRead 0x00) s = .next { s with reply := some (.word 0#32) } ∧
    (s.errCode.toNat ≤ 2 →
      ∃ v : Word, hostAccess (.regRead 0x04) s = .next { s with reply := some (.word v) } ∧
        v.toNat = s.busy.toNat + 2 * s.done.toNat + 4 * s.err.toNat + 8 * s.valid.toNat +
          16 * s.errCode.toNat + 256 * s.aerr.toNat) ∧
    (∃ v : Word, hostAccess (.regRead 0x08) s = .next { s with reply := some (.word v) } ∧
      v.toNat = s.inLen.toNat) ∧
    (∃ v : Word, hostAccess (.regRead 0x0C) s = .next { s with reply := some (.word v) } ∧
      v.toNat = s.csLen.toNat) ∧
    (∃ v : Word, hostAccess (.regRead 0x1C) s = .next { s with reply := some (.word v) } ∧
      v.toNat = s.nIbuf) ∧
    (s.busy = false →
      (∃ v : Word, hostAccess (.regRead 0x10) s = .next { s with reply := some (.word v) } ∧
        v.toNat = s.csum.toNat) ∧
      (∃ v : Word, hostAccess (.regRead 0x14) s = .next { s with reply := some (.word v) } ∧
        v.toNat = s.outLen.toNat) ∧
      (∃ v : Word, hostAccess (.regRead 0x18) s = .next { s with reply := some (.word v) } ∧
        v.toNat = s.resCount.toNat)) ∧
    (s.busy = true → ∀ off ∈ [0x10, 0x14, 0x18],
      hostAccess (.regRead off) s =
        .next { s with reply := some (.word (Config.freeWord s.draws)), draws := s.draws + 1 }) ∧
    (∀ off, off ∉ [0x00, 0x04, 0x08, 0x0C, 0x10, 0x14, 0x18, 0x1C] →
      hostAccess (.regRead off) s = .next { s with aerr := true, reply := some (.word 0#32) })

/-- A reserved ERRCODE is never shown: no step leaves one in a state that holds none, and a read of STATUS that would show
one is a model fault (60_exceptions.md section 1: "never produced"; 93_implementation_defined.md U9: "if observed,
`fault`"; log 9). -/
def Obligations.ReservedErrCodeStops : Prop :=
  (∀ s t : State, step s = .next t → s.errCode.toNat ≤ 2 → t.errCode.toNat ≤ 2) ∧
  (∀ s : State, 2 < s.errCode.toNat → hostAccess (.regRead 0x04) s = .fault .reservedErrCode)

/-- 43_control_and_host.md R195, with 10_state.md R25 and R26 for IN_LEN and CS_LEN. While BUSY = 1 a write is R192's: all
but SOFT_RESET is dropped with AERR. Else by offset: CMD starts the command a word names (what that is, `CommandAcceptance`
and `SoftResetResets` say) or rejects the word; STATUS clears AERR by bit 8 alone; IN_LEN and CS_LEN take a value in range;
every other offset is dropped with AERR. -/
def Obligations.RegWriteByOffset : Prop :=
  ∀ (s : State) (v : Word),
    (s.busy = true → ∀ off, ¬ (off = 0x00 ∧ v = 0x0000000F#32) →
      hostAccess (.regWrite off v) s = .next { s with aerr := true, reply := none }) ∧
    (s.busy = true → v = 0x0000000F#32 →
      hostAccess (.regWrite 0x00 v) s = exec .softReset { s with reply := none }) ∧
    (s.busy = false →
      (∀ i, decode v = .ok i → hostAccess (.regWrite 0x00 v) s = exec i { s with reply := none }) ∧
      (∀ e, decode v = .error e → hostAccess (.regWrite 0x00 v) s =
        .next { s with valid := false, err := true, errCode := 2#4, done := true, reply := none }) ∧
      (v.getLsbD 8 = true → hostAccess (.regWrite 0x04 v) s = .next { s with aerr := false, reply := none }) ∧
      (v.getLsbD 8 = false → hostAccess (.regWrite 0x04 v) s = .next { s with reply := none }) ∧
      (v.toNat ≤ s.nIbuf → ∃ n : BitVec 23, n.toNat = v.toNat ∧
        hostAccess (.regWrite 0x08 v) s = .next { s with inLen := n, reply := none }) ∧
      (s.nIbuf < v.toNat → hostAccess (.regWrite 0x08 v) s = .next { s with aerr := true, reply := none }) ∧
      (v.toNat ≤ 255 → ∃ n : BitVec 8, n.toNat = v.toNat ∧
        hostAccess (.regWrite 0x0C v) s = .next { s with csLen := n, reply := none }) ∧
      (255 < v.toNat → hostAccess (.regWrite 0x0C v) s = .next { s with aerr := true, reply := none }) ∧
      (∀ off ∈ [0x10, 0x14, 0x18, 0x1C],
        hostAccess (.regWrite off v) s = .next { s with aerr := true, reply := none }) ∧
      (∀ off, off ∉ [0x00, 0x04, 0x08, 0x0C, 0x10, 0x14, 0x18, 0x1C] →
        hostAccess (.regWrite off v) s = .next { s with aerr := true, reply := none }))

/-- 43_control_and_host.md R196: IbufWrite: dropped with AERR while BUSY = 1 and for an index at or beyond N_IBUF; else
IBUF[i] takes the byte and is marked written, and nothing else changes (IN_LEN neither). -/
def Obligations.IbufWriteStores : Prop :=
  ∀ (s : State) (i : Nat) (b : Byte),
    (s.busy = true ∨ s.nIbuf ≤ i →
      hostAccess (.ibufWrite i b) s = .next { s with aerr := true, reply := none }) ∧
    (s.busy = false → i < s.nIbuf →
      ∃ t, hostAccess (.ibufWrite i b) s = .next t ∧
        Memory.read (w := 8) t.ibuf i = some b ∧ Memory.written (w := 8) t.ibuf i = true ∧
        (∀ j, j ≠ i → Memory.read (w := 8) t.ibuf j = Memory.read (w := 8) s.ibuf j) ∧
        t = { s with ibuf := t.ibuf, reply := none })

/-- 43_control_and_host.md R197: IbufRead, allowed while BUSY = 1. -/
def Obligations.IbufReadReturns : Prop :=
  ∀ (s : State) (i : Nat),
    (s.nIbuf ≤ i → hostAccess (.ibufRead i) s = .next { s with aerr := true, reply := some (.byte 0#8) }) ∧
    (i < s.nIbuf → Memory.written (w := 8) s.ibuf i = false →
      hostAccess (.ibufRead i) s = .fault .uninitRead) ∧
    (∀ b, i < s.nIbuf → Memory.read (w := 8) s.ibuf i = some b →
      hostAccess (.ibufRead i) s = .next { s with reply := some (.byte b) })

/-- 43_control_and_host.md R198: ObufRead; while BUSY = 1 it returns a fresh free byte, of which nothing is said. -/
def Obligations.ObufReadReturns : Prop :=
  ∀ (s : State) (i : Nat),
    (258 ≤ i → hostAccess (.obufRead i) s = .next { s with aerr := true, reply := some (.byte 0#8) }) ∧
    (i < 258 → s.busy = true →
      hostAccess (.obufRead i) s =
        .next { s with reply := some (.byte (Config.freeByte s.draws)), draws := s.draws + 1 }) ∧
    (i < 258 → s.busy = false → Memory.written (w := 8) s.obuf i = false →
      hostAccess (.obufRead i) s = .fault .uninitRead) ∧
    (∀ b, i < 258 → s.busy = false → Memory.read (w := 8) s.obuf i = some b →
      hostAccess (.obufRead i) s = .next { s with reply := some (.byte b) })

/-- 43_control_and_host.md R199: RbufRead; while BUSY = 1 it returns a fresh free word, of which nothing is said. A
descriptor that is not the reserved one of 30_encoding.md R100 (KIND 0b11 inside the result range, which
`ReservedKindIsNeverWritten` states) is returned. -/
def Obligations.RbufReadReturns : Prop :=
  ∀ (s : State) (i : Nat),
    (s.nIbuf ≤ i → hostAccess (.rbufRead i) s = .next { s with aerr := true, reply := some (.word 0#32) }) ∧
    (i < s.nIbuf → s.busy = true →
      hostAccess (.rbufRead i) s =
        .next { s with reply := some (.word (Config.freeWord s.draws)), draws := s.draws + 1 }) ∧
    (i < s.nIbuf → s.busy = false → Memory.written s.rbuf i = false →
      hostAccess (.rbufRead i) s = .fault .uninitRead) ∧
    (∀ d, i < s.nIbuf → s.busy = false → Memory.read s.rbuf i = some d →
      ¬ (descKind d = 0b11#2 ∧ i < s.resCount.toNat) →
      hostAccess (.rbufRead i) s = .next { s with reply := some (.word d) })

/-- A read changes nothing but the model's own `reply` and `draws`, and AERR, which only an invalid read sets; while
BUSY = 0 the same read made twice returns the same value (20_memory.md section 3). -/
def Obligations.ReadsHaveNoSideEffect : Prop :=
  ∀ (a : HostAccess) (s t : State),
    ((∃ off, a = .regRead off) ∨ (∃ i, a = .ibufRead i) ∨ (∃ i, a = .obufRead i) ∨ (∃ i, a = .rbufRead i)) →
    hostAccess a s = .next t →
    t = { s with reply := t.reply, draws := t.draws, aerr := t.aerr } ∧
    (t.aerr = s.aerr ∨
      (∃ off, a = .regRead off ∧ Reg.ofOffset off = none) ∨ (∃ i, a = .ibufRead i ∧ s.nIbuf ≤ i) ∨
      (∃ i, a = .obufRead i ∧ 258 ≤ i) ∨ (∃ i, a = .rbufRead i ∧ s.nIbuf ≤ i)) ∧
    (s.busy = false → hostAccess a t = .next t)

/-! ### Steps of the block (43_control_and_host.md section 5) -/

/-- The block's step, host side: when the host moves and its next access writes to CMD a word that decodes to a command
which the block takes (BUSY = 0, or SOFT_RESET in any state), the step is exec of that command; the model's own fields
around it: the access is taken off the script, the turn off the schedule, and a write returns nothing (log 1, log 2,
log 7). The placed word of `withFetchWord` is such an access. -/
def Obligations.StepRunsWrittenCommand : Prop :=
  (∀ (s : State) (w : Word) (rest : List ScriptItem) (i : Instr),
    nextAgent s = .host → s.script = .access (.regWrite 0x00 w) :: rest → decode w = .ok i →
    s.busy = false ∨ i = .softReset →
    step s = exec i { s with script := rest, schedule := s.schedule.tail, reply := none }) ∧
  (∀ (s : State) (w : Nat) (i : Instr), w < 2 ^ 32 → decodeTableWord 32 w = some i →
    step (s.withFetchWord 32 w) = exec i { s with busy := false, reply := none })

/-- 43_control_and_host.md R201: the engine's step, enabled while BUSY = 1, is the completion of `pending`: one transition
that ends with BUSY 0 and DONE 1 or in a model fault, and its result depends only on `pending`, IN_LEN, CS_LEN and IBUF:
two blocks that agree on these end alike, and each output either takes the same value in both or is unchanged in both. -/
def Obligations.EngineStepCompletesPending : Prop :=
  (∀ s : State, s.busy = true → nextAgent s = .engine →
    step s = exec s.pending.toInstr { s with schedule := s.schedule.tail }) ∧
  (∀ s t : State, s.busy = true → exec s.pending.toInstr s = .next t → t.busy = false ∧ t.done = true) ∧
  (∀ s s' : State, s.busy = true → s'.busy = true → s'.pending = s.pending → s'.inLen = s.inLen →
    s'.csLen = s.csLen → s'.ibuf = s.ibuf →
    (∀ f, exec s.pending.toInstr s = .fault f ↔ exec s'.pending.toInstr s' = .fault f) ∧
    (∀ t, exec s.pending.toInstr s = .next t → ∃ t', exec s'.pending.toInstr s' = .next t' ∧
      (t'.csum = t.csum ∨ (t'.csum = s'.csum ∧ t.csum = s.csum)) ∧
      (t'.outLen = t.outLen ∨ (t'.outLen = s'.outLen ∧ t.outLen = s.outLen)) ∧
      (t'.resCount = t.resCount ∨ (t'.resCount = s'.resCount ∧ t.resCount = s.resCount)) ∧
      (t'.valid = t.valid ∨ (t'.valid = s'.valid ∧ t.valid = s.valid)) ∧
      (t'.err = t.err ∨ (t'.err = s'.err ∧ t.err = s.err)) ∧
      (t'.errCode = t.errCode ∨ (t'.errCode = s'.errCode ∧ t.errCode = s.errCode)) ∧
      (∀ a, Memory.read (w := 8) t'.obuf a = Memory.read (w := 8) t.obuf a ∨
        (Memory.read (w := 8) t'.obuf a = Memory.read (w := 8) s'.obuf a ∧
          Memory.read (w := 8) t.obuf a = Memory.read (w := 8) s.obuf a)) ∧
      (∀ a, Memory.read t'.rbuf a = Memory.read t.rbuf a ∨
        (Memory.read t'.rbuf a = Memory.read s'.rbuf a ∧ Memory.read t.rbuf a = Memory.read s.rbuf a))))

/-- The other steps. The first clause: an access of the script that the host makes (43_control_and_host.md section 3). The
other two are the model's choice (log 10, DESIGN CHOICE): an agent that has no step to take has a turn in which nothing
happens but that the schedule's entry is used, the engine's while BUSY = 0 (60_exceptions.md section 4: "When not BUSY the
engine is idle and keeps all state") and the host's after its script has ended (43_control_and_host.md section 5: "A host
script has ended when its last access has been performed and BUSY = 0"). -/
def Obligations.StepTakesOneTurn : Prop :=
  (∀ (s : State) (a : HostAccess) (rest : List ScriptItem),
    nextAgent s = .host → s.script = .access a :: rest →
    step s = hostAccess a { s with script := rest, schedule := s.schedule.tail }) ∧
  (∀ s : State, nextAgent s = .engine → s.busy = false →
    step s = .next { s with schedule := s.schedule.tail }) ∧
  (∀ s : State, nextAgent s = .host → s.script = [] → step s = .next { s with schedule := s.schedule.tail })

/-- A host at WAIT gets past it, whatever the schedule is: after at most two steps more than the schedule has entries its
script goes on with what follows WAIT, its last read of STATUS returned BUSY = 0 (30_encoding.md section 5: "It ends after a
finite number of reads"), and if a command was in flight it has completed, and that read returned DONE = 1 as well, by which
the command has ended (43_control_and_host.md section 5). The bound is the model's form of the spec's weak fairness
(70_reset_and_hazards.md section 4; log 15), and WAIT as one script line is the model's choice (log 11). -/
def Obligations.WaitEnds : Prop :=
  ∀ (s : State) (rest : List ScriptItem), s.Inv → s.FlightReady → s.script = .wait :: rest →
    ∃ (k : Nat) (t : State) (v : Word), k ≤ s.schedule.length + 2 ∧ Sys2Proof.core.run k s = .next t ∧
      t.script = rest ∧ t.busy = false ∧ t.reply = some (.word v) ∧ v.getLsbD 0 = false ∧
      (s.busy = true ∨ s.done = true → t.done = true ∧ v.getLsbD 1 = true)

/-! ### Rules of the whole machine -/

/-- No step changes PARAM (10_state.md section 3: "It is constant"). -/
def Obligations.ParamIsConstant : Prop :=
  ∀ s t : State, step s = .next t → t.param = s.param

/-- The engine writes no input: a step changes IBUF only by an IbufWrite and IN_LEN and CS_LEN only by a RegWrite, both
while BUSY = 0, or by a SOFT_RESET (20_memory.md sections 1 and 5, 10_state.md section 3). So a command's input is fixed
from its acceptance to its completion. -/
def Obligations.InputsHaveOneWriter : Prop :=
  ∀ s t : State, step s = .next t →
    (t.ibuf = s.ibuf ∧ t.inLen = s.inLen ∧ t.csLen = s.csLen) ∨
    (nextAgent s = .host ∧ ∃ a rest, s.script = .access a :: rest ∧
      (isSoftReset a = true ∨
       (s.busy = false ∧ (∃ i b, a = .ibufWrite i b) ∧ t.inLen = s.inLen ∧ t.csLen = s.csLen) ∨
       (s.busy = false ∧ (∃ v, a = .regWrite 0x08 v) ∧ t.ibuf = s.ibuf ∧ t.csLen = s.csLen) ∨
       (s.busy = false ∧ (∃ v, a = .regWrite 0x0C v) ∧ t.ibuf = s.ibuf ∧ t.inLen = s.inLen)))

/-- The outputs have one writer each: a step changes OBUF or OUT_LEN only as the completion of ENCODE, RBUF or RES_COUNT
only as the completion of SCAN, CSUM only as the completion of ENCODE or CHECKSUM, or by a SOFT_RESET (10_state.md section
3, 20_memory.md section 1). -/
def Obligations.OutputsHaveOneWriter : Prop :=
  ∀ s t : State, step s = .next t →
    (nextAgent s = .host ∧ ∃ a rest, s.script = .access a :: rest ∧ isSoftReset a = true) ∨
    ((t.obuf = s.obuf ∧ t.outLen = s.outLen ∨
        (nextAgent s = .engine ∧ s.busy = true ∧ s.pending = .encode)) ∧
     (t.rbuf = s.rbuf ∧ t.resCount = s.resCount ∨
        (nextAgent s = .engine ∧ s.busy = true ∧ s.pending = .scan)) ∧
     (t.csum = s.csum ∨
        (nextAgent s = .engine ∧ s.busy = true ∧ (s.pending = .encode ∨ s.pending = .checksum))))

/-- 60_exceptions.md R225: AccessError is raised by the invalid accesses listed there (`AccessInvalid`) and by no other
access; it sets AERR and changes nothing else (`reply` is the model's own); AERR is sticky: a step that clears it is a
SOFT_RESET or a STATUS write with bit 8 = 1 while BUSY = 0. -/
def Obligations.AccessErrors : Prop :=
  (∀ off : Nat, Reg.ofOffset off = none ↔ off ∉ [0x00, 0x04, 0x08, 0x0C, 0x10, 0x14, 0x18, 0x1C]) ∧
  (∀ (a : HostAccess) (s : State), AccessInvalid s a →
    ∃ r, hostAccess a s = .next { s with aerr := true, reply := r }) ∧
  (∀ (a : HostAccess) (s t : State), ¬ AccessInvalid s a → hostAccess a s = .next t → s.aerr = false → t.aerr = false) ∧
  (∀ s t : State, step s = .next t →
    (s.aerr = true → t.aerr = false →
      nextAgent s = .host ∧ ∃ a rest, s.script = .access a :: rest ∧ clearsAerr s a = true) ∧
    (s.aerr = false → t.aerr = true → nextAgent s = .host))

/-- Error entry (60_exceptions.md section 2: "An error is reported by the command's own completion step"): ERR rises in two
ways only, an over-long ENCODE's completion and an illegal CMD write while BUSY = 0, and these change what the spec lists
and nothing else (VALID is cleared as 43_control_and_host.md section 1 says, log 19). -/
def Obligations.ErrorEntry : Prop :=
  ∀ s t : State, step s = .next t → s.err = false → t.err = true →
    (nextAgent s = .engine ∧ s.busy = true ∧ s.pending = .encode ∧ 255 < s.inLen.toNat ∧
      t = { s with err := true, errCode := 1#4, done := true, busy := false, outLen := 0#9,
                   schedule := s.schedule.tail }) ∨
    (nextAgent s = .host ∧ s.busy = false ∧ ∃ w e rest, s.script = .access (.regWrite 0x00 w) :: rest ∧
      decode w = .error e ∧
      t = { s with valid := false, err := true, errCode := 2#4, done := true, reply := none, script := rest,
                   schedule := s.schedule.tail })

/-- BUSY rises only by the acceptance of a command and falls only by its completion, which sets DONE, or by a SOFT_RESET
(10_state.md sections 3 and 5). -/
def Obligations.BusyFollowsTheCommand : Prop :=
  ∀ s t : State, step s = .next t →
    (s.busy = false → t.busy = true →
      nextAgent s = .host ∧ ∃ w rest i, s.script = .access (.regWrite 0x00 w) :: rest ∧ decode w = .ok i ∧
        i = t.pending.toInstr ∧ t.done = false ∧ t.err = false ∧ t.valid = false ∧ t.errCode = 0#4) ∧
    (s.busy = true → t.busy = false →
      (nextAgent s = .engine ∧ t.done = true) ∨
      (nextAgent s = .host ∧ ∃ a rest, s.script = .access a :: rest ∧ isSoftReset a = true))

/-- 10_state.md R37: the state after reset. PARAM reads N_IBUF; no buffer entry is marked written; of `pending` nothing is
said (log 4). -/
def Obligations.ResetState : Prop :=
  statusWord State.reset = 0x00000000#32 ∧
  State.reset.busy = false ∧ State.reset.done = false ∧ State.reset.err = false ∧ State.reset.valid = false ∧
  State.reset.errCode = 0#4 ∧ State.reset.aerr = false ∧ State.reset.inLen = 0#23 ∧ State.reset.csLen = 0#8 ∧
  State.reset.csum = 0#8 ∧ State.reset.outLen = 0#9 ∧ State.reset.resCount = 0#23 ∧
  State.reset.nIbuf = Config.nIbuf ∧ regValue State.reset .cmd = 0#32 ∧
  (∀ i, Memory.written (w := 8) State.reset.ibuf i = false) ∧
  (∀ i, Memory.written (w := 8) State.reset.obuf i = false) ∧
  (∀ i, Memory.written State.reset.rbuf i = false)

/-- The invariant holds after reset, for every legal N_IBUF (00_scope.md section 4). -/
def Obligations.ResetMeetsInvariant : Prop := State.reset.Inv ∧ State.reset.FlightReady

/-- Every step keeps the invariant: N_IBUF is legal; IN_LEN and RES_COUNT are at most N_IBUF and OUT_LEN is 0 or 3..258;
ERRCODE is 0, 1 or 2 and agrees with ERR, and the STATUS fields exclude each other as 10_state.md section 3 says; the
buffers list only existing indices, in canonical form; the result ranges are written and no descriptor has the reserved
KIND (10_state.md, 20_memory.md, 30_encoding.md section 4, 60_exceptions.md section 1). -/
def Obligations.StepKeepsInvariant : Prop :=
  ∀ s t : State, s.Inv → step s = .next t → t.Inv

/-- A careful host never meets an unspecified value or a model fault (43_control_and_host.md section 4: "A host that keeps
to the "host must" column never meets an unspecified value or a model fault"): from a state with the invariant whose
command in flight has its input, if the host's next access respects that column, and, where it reads IBUF, reads a byte
written since reset, the step gives a next state, from which the same holds on; no free value is drawn, except the one that
SOFT_RESET leaves in `pending`, which no step reads while BUSY = 0. The condition on IBUF reads is the model's own addition
to the column (log 20, DESIGN CHOICE): the column does not list it, and without it the spec's sentence fails, since a read of
an unwritten IBUF byte is the model fault UNINIT_READ (43_control_and_host.md section 3). -/
def Obligations.CarefulHostNeverFaults : Prop :=
  ∀ s : State, s.Inv → s.FlightReady → (nextAgent s = .host → s.HostCareful) →
    ∃ t, step s = .next t ∧ t.Inv ∧ t.FlightReady ∧
      (t.draws = s.draws ∨
        (nextAgent s = .host ∧ ∃ a rest, s.script = .access a :: rest ∧ isSoftReset a = true))
end

