-- ==== Sys2Proof/Laws/Codec.lean ====
section
/-! SUPPORT. Laws of the pure functions: the byte sum, and the turns of the scan loop. -/

namespace Sys2Proof.Machine

theorem byteSum_eq_sum (p : List Byte) : byteSum p = (p.map BitVec.toNat).sum := by
  induction p with
  | nil => rfl
  | cons b p ih => simp [byteSum, ih]

theorem checksum_toNat (len : Byte) (p : List Byte) :
    (checksum len p).toNat = (256 - (len.toNat + byteSum p) % 256) % 256 := by
  simp only [checksum, BitVec.toNat_ofNat]
  omega

theorem wireBytes_length (f : Frame) : (wireBytes f).length = f.payload.length + 3 := by
  simp [wireBytes]

theorem byteAt_of_getElem? {f : List Byte} {i : Nat} {b : Byte} (h : f[i]? = some b) : byteAt f i = b := by
  simp [byteAt, List.getD, h]

theorem getElem?_of_lt {f : List Byte} {i : Nat} (h : i < f.length) : f[i]? = some (byteAt f i) := by
  simp [byteAt, List.getD, List.getElem?_eq_getElem h]

theorem frameFits_iff {buf : List Byte} {c : Nat} :
    frameFits buf c = true ↔
      byteAt buf c = startCode ∧ c + 2 < buf.length ∧ c + 2 + (byteAt buf (c + 1)).toNat < buf.length := by
  simp [frameFits, and_assoc]

theorem entrySpan_pos (e : Entry) : 0 < entrySpan e := by
  cases e <;> simp [entrySpan]

@[simp] theorem entryOffset_entryAt (buf : List Byte) (c : Nat) : entryOffset (entryAt buf c) = c := by
  rw [entryAt]; split <;> rfl

/-- A turn of the scan never passes the end of the buffer (42_frame_scanner.md R170). -/
theorem entryAt_end_le {buf : List Byte} {c : Nat} (h : c < buf.length) :
    c + entrySpan (entryAt buf c) ≤ buf.length := by
  rw [entryAt]
  split
  · have := frameFits_iff.1 ‹_›
    simp only [entrySpan]; omega
  · simp only [entrySpan]; omega

/-- Any two turn bounds that suffice give the same entries. -/
theorem scanLoop_bound {buf : List Byte} {m k c : Nat} (h1 : buf.length - c ≤ k) (h2 : k ≤ m) :
    scanLoop buf m c = scanLoop buf k c := by
  induction m generalizing k c with
  | zero => rw [show k = 0 by omega]
  | succ m ih =>
    cases k with
    | zero => simp only [scanLoop]; rw [if_neg (by omega)]
    | succ k =>
      simp only [scanLoop]
      split
      · have := entrySpan_pos (entryAt buf c)
        rw [ih (k := k) (by omega) (by omega)]
      · rfl

/-- More turns than bytes are left change nothing. -/
theorem scanLoop_fuel {buf : List Byte} {fuel c : Nat} (h : buf.length - c ≤ fuel) :
    scanLoop buf fuel c = scanFrom buf c := scanLoop_bound (Nat.le_refl _) h

theorem scanFrom_of_le {buf : List Byte} {c : Nat} (h : buf.length ≤ c) : scanFrom buf c = [] := by
  rw [scanFrom, show buf.length - c = 0 by omega]; rfl

/-- One turn of the scan. -/
theorem scanFrom_of_lt {buf : List Byte} {c : Nat} (h : c < buf.length) :
    scanFrom buf c = entryAt buf c :: scanFrom buf (c + entrySpan (entryAt buf c)) := by
  obtain ⟨k, hk⟩ : ∃ k, buf.length - c = k + 1 := ⟨buf.length - c - 1, by omega⟩
  have hp := entrySpan_pos (entryAt buf c)
  rw [scanFrom, hk, scanLoop, if_pos h, scanLoop_fuel (by omega)]

end Sys2Proof.Machine
end

