-- ==== Sys2Proof/Laws/Memory.lean ====
section
/-! SUPPORT. The laws of a buffer: read after write, and that every write keeps the canonical form. -/

namespace Sys2Proof.Machine

variable {w : Nat}

@[simp] theorem Memory.unlisted_eq : Memory.unlisted w = none := rfl

@[simp] theorem Memory.read_nil (a : Nat) : Memory.read ([] : Memory w) a = none := rfl

theorem Memory.read_cons (c : Nat × BitVec w) (m : Memory w) (a : Nat) :
    Memory.read (c :: m) a = if c.1 = a then some c.2 else Memory.read m a := rfl

@[simp] theorem Memory.written_nil (a : Nat) : Memory.written ([] : Memory w) a = false := rfl

theorem Memory.written_iff {m : Memory w} {a : Nat} :
    Memory.written m a = true ↔ ∃ v, Memory.read m a = some v := by
  simp [Memory.written, Option.isSome_iff_exists]

theorem Memory.written_eq_false {m : Memory w} {a : Nat} :
    Memory.written m a = false ↔ Memory.read m a = none := by
  simp [Memory.written]

/-- A read after a write: the written entry reads as the value written, every other as before. -/
theorem Memory.read_write (m : Memory w) (a b : Nat) (v : BitVec w) :
    Memory.read (Memory.write m a v) b = if b = a then some v else Memory.read m b := by
  induction m with
  | nil => simp only [Memory.write, Memory.read_cons, eq_comm]
  | cons c m ih =>
    simp only [Memory.write]
    split
    · simp only [Memory.read_cons, eq_comm]
    · split
      · subst a; simp only [Memory.read_cons, eq_comm]; split <;> rfl
      · simp only [Memory.read_cons, ih]
        split
        · subst b; rw [if_neg (by omega)]
        · rfl

/-- A read after writes of consecutive entries. -/
theorem Memory.read_writeList (m : Memory w) (a b : Nat) (vs : List (BitVec w)) :
    Memory.read (Memory.writeList m a vs) b =
      if a ≤ b ∧ b < a + vs.length then vs[b - a]? else Memory.read m b := by
  induction vs generalizing m a with
  | nil => rw [if_neg (by simp)]; rfl
  | cons v vs ih =>
    simp only [Memory.writeList, ih, List.length_cons, Memory.read_write]
    by_cases h : b = a
    · subst b; rw [if_neg (by omega), if_pos rfl, if_pos (by omega)]; simp
    · by_cases h2 : a + 1 ≤ b ∧ b < a + 1 + vs.length
      · rw [if_pos h2, if_pos (by omega), show b - a = (b - (a + 1)) + 1 by omega, List.getElem?_cons_succ]
      · rw [if_neg h2, if_neg h, if_neg (by omega)]

/-- A write lists its own entry and nothing else that was not listed. -/
theorem Memory.mem_write {m : Memory w} {a : Nat} {v : BitVec w} {c : Nat × BitVec w}
    (h : c ∈ Memory.write m a v) : c = (a, v) ∨ c ∈ m := by
  induction m with
  | nil => simpa [Memory.write] using h
  | cons d m ih =>
    simp only [Memory.write] at h
    split at h
    · simpa using h
    · split at h
      · rcases List.mem_cons.1 h with h | h
        · exact .inl h
        · exact .inr (List.mem_cons_of_mem _ h)
      · rcases List.mem_cons.1 h with h | h
        · exact .inr (h ▸ List.mem_cons_self)
        · exact (ih h).imp id (List.mem_cons_of_mem _)

/-- Writes of consecutive entries list those entries and nothing else that was not listed. -/
theorem Memory.mem_writeList {m : Memory w} {a : Nat} {vs : List (BitVec w)} {c : Nat × BitVec w}
    (h : c ∈ Memory.writeList m a vs) : (a ≤ c.1 ∧ c.1 < a + vs.length ∧ c.2 ∈ vs) ∨ c ∈ m := by
  induction vs generalizing m a with
  | nil => exact .inr h
  | cons v vs ih =>
    rcases ih h with ⟨h1, h2, h3⟩ | h
    · exact .inl ⟨by omega, by simp; omega, List.mem_cons_of_mem _ h3⟩
    · rcases Memory.mem_write h with rfl | h
      · exact .inl ⟨by simp, by simp, by simp⟩
      · exact .inr h

/-- A write keeps the canonical form. -/
theorem Memory.write_wf {m : Memory w} (h : Memory.wf m) (a : Nat) (v : BitVec w) :
    Memory.wf (Memory.write m a v) := by
  refine ⟨?_, by simp⟩
  replace h := h.1
  induction m with
  | nil => simp [Memory.write]
  | cons c m ih =>
    rw [List.map_cons, List.pairwise_cons] at h
    simp only [Memory.write]
    split
    · rename_i hlt
      simp only [List.map_cons, List.pairwise_cons]
      refine ⟨fun b hb => ?_, h⟩
      rcases List.mem_cons.1 hb with rfl | hb
      · exact hlt
      · exact hlt.trans (h.1 b hb)
    · split
      · subst a; simpa using h
      · rename_i h1 h2
        rw [List.map_cons, List.pairwise_cons]
        refine ⟨fun b hb => ?_, ih h.2⟩
        obtain ⟨d, hd, rfl⟩ := List.mem_map.1 hb
        rcases Memory.mem_write hd with rfl | hd
        · show c.1 < a; omega
        · exact h.1 _ (List.mem_map_of_mem hd)

/-- Writes of consecutive entries keep the canonical form. -/
theorem Memory.writeList_wf {m : Memory w} (h : Memory.wf m) (a : Nat) (vs : List (BitVec w)) :
    Memory.wf (Memory.writeList m a vs) := by
  induction vs generalizing m a with
  | nil => exact h
  | cons v vs ih => exact ih (Memory.write_wf h a v) (a + 1)

/-- The empty buffer has the canonical form. -/
theorem Memory.nil_wf : Memory.wf ([] : Memory w) := by simp [Memory.wf]

/-- The buffers of a block right after reset have the canonical form. -/
theorem State.reset_memory_wf : Memory.wf (w := 8) State.reset.ibuf ∧ Memory.wf (w := 8) State.reset.obuf ∧
    Memory.wf State.reset.rbuf :=
  ⟨Memory.nil_wf, Memory.nil_wf, Memory.nil_wf⟩

/-- In canonical form a listed entry reads as its value. -/
theorem Memory.read_of_mem {m : Memory w} (h : Memory.wf m) {c : Nat × BitVec w} (hc : c ∈ m) :
    Memory.read m c.1 = some c.2 := by
  replace h := h.1
  induction m with
  | nil => cases hc
  | cons d m ih =>
    rw [List.map_cons, List.pairwise_cons] at h
    rw [Memory.read_cons]
    rcases List.mem_cons.1 hc with rfl | hc
    · simp
    · have := h.1 _ (List.mem_map_of_mem hc)
      rw [if_neg (by omega), ih hc h.2]

/-- What is read is listed. -/
theorem Memory.mem_of_read {m : Memory w} {a : Nat} {v : BitVec w} (h : Memory.read m a = some v) : (a, v) ∈ m := by
  induction m with
  | nil => cases h
  | cons d m ih =>
    rw [Memory.read_cons] at h
    split at h
    · rename_i hd; cases h; subst hd; exact List.mem_cons_self
    · exact List.mem_cons_of_mem _ (ih h)

/-- Reading consecutive entries succeeds with `vs` exactly when each of them reads as its place in `vs`. -/
theorem Memory.readList_eq_some_iff {m : Memory w} {a n : Nat} {vs : List (BitVec w)} :
    Memory.readList m a n = some vs ↔ vs.length = n ∧ ∀ i < n, Memory.read m (a + i) = vs[i]? := by
  induction n generalizing a vs with
  | zero => simp [Memory.readList, eq_comm]
  | succ n ih =>
    constructor
    · intro h
      simp only [Memory.readList] at h
      split at h
      · rename_i v us h1 h2
        cases h
        obtain ⟨hl, hr⟩ := ih.1 h2
        refine ⟨by simp [hl], fun i hi => ?_⟩
        cases i with
        | zero => simpa using h1
        | succ i => rw [List.getElem?_cons_succ, ← hr i (by omega)]; congr 1; omega
      · cases h
    · rintro ⟨hl, hr⟩
      cases vs with
      | nil => simp at hl
      | cons v vs =>
        have h0 := hr 0 (by omega)
        have h1 : Memory.readList m (a + 1) n = some vs := ih.2 ⟨by simpa using hl, fun i hi => by
          have := hr (i + 1) (by omega)
          rw [List.getElem?_cons_succ] at this
          rw [← this]; congr 1; omega⟩
        simp only [Memory.readList, h1]
        rw [show Memory.read m a = some v by simpa using h0]

/-- Reading consecutive entries fails exactly when one of them is not written. -/
theorem Memory.readList_eq_none_iff {m : Memory w} {a n : Nat} :
    Memory.readList m a n = none ↔ ∃ i < n, Memory.written m (a + i) = false := by
  induction n generalizing a with
  | zero => simp [Memory.readList]
  | succ n ih =>
    rw [Nat.exists_lt_succ_left, show a + 0 = a from rfl, Memory.written_eq_false]
    have e : (∃ i < n, Memory.written m (a + (i + 1)) = false) ↔ Memory.readList m (a + 1) n = none := by
      simp only [ih, Nat.add_assoc, Nat.add_comm 1]
    rw [e, Memory.readList]
    split
    · rename_i h1 h2; simp [h1, h2]
    · rename_i h
      simp only [true_iff]
      cases h1 : Memory.read m a with
      | none => exact .inl rfl
      | some v =>
        cases h2 : Memory.readList m (a + 1) n with
        | none => exact .inr rfl
        | some vs => exact absurd h2 (h v vs h1)

end Sys2Proof.Machine
end

