-- ==== Sys2Proof/Laws/State.lean ====
section
/-! SUPPORT. What each named update of the state does to each field: one lemma per field per update. A flag's lemma is
proved by (rfl), which keeps simp from rewriting an if's condition without its decision procedure. -/

namespace Sys2Proof.Machine

/-! ### setCsum -/

@[simp] theorem setCsum_busy (v : Byte) (s : State) : (setCsum v s).busy = s.busy := (rfl)
@[simp] theorem setCsum_done (v : Byte) (s : State) : (setCsum v s).done = s.done := (rfl)
@[simp] theorem setCsum_err (v : Byte) (s : State) : (setCsum v s).err = s.err := (rfl)
@[simp] theorem setCsum_valid (v : Byte) (s : State) : (setCsum v s).valid = s.valid := (rfl)
@[simp] theorem setCsum_errCode (v : Byte) (s : State) : (setCsum v s).errCode = s.errCode := rfl
@[simp] theorem setCsum_aerr (v : Byte) (s : State) : (setCsum v s).aerr = s.aerr := (rfl)
@[simp] theorem setCsum_inLen (v : Byte) (s : State) : (setCsum v s).inLen = s.inLen := rfl
@[simp] theorem setCsum_csLen (v : Byte) (s : State) : (setCsum v s).csLen = s.csLen := rfl
@[simp] theorem setCsum_csum (v : Byte) (s : State) : (setCsum v s).csum = v := rfl
@[simp] theorem setCsum_outLen (v : Byte) (s : State) : (setCsum v s).outLen = s.outLen := rfl
@[simp] theorem setCsum_resCount (v : Byte) (s : State) : (setCsum v s).resCount = s.resCount := rfl
@[simp] theorem setCsum_param (v : Byte) (s : State) : (setCsum v s).param = s.param := rfl
@[simp] theorem setCsum_pending (v : Byte) (s : State) : (setCsum v s).pending = s.pending := rfl
@[simp] theorem setCsum_ibuf (v : Byte) (s : State) : (setCsum v s).ibuf = s.ibuf := rfl
@[simp] theorem setCsum_obuf (v : Byte) (s : State) : (setCsum v s).obuf = s.obuf := rfl
@[simp] theorem setCsum_rbuf (v : Byte) (s : State) : (setCsum v s).rbuf = s.rbuf := rfl
@[simp] theorem setCsum_script (v : Byte) (s : State) : (setCsum v s).script = s.script := rfl
@[simp] theorem setCsum_schedule (v : Byte) (s : State) : (setCsum v s).schedule = s.schedule := rfl
@[simp] theorem setCsum_reply (v : Byte) (s : State) : (setCsum v s).reply = s.reply := rfl
@[simp] theorem setCsum_draws (v : Byte) (s : State) : (setCsum v s).draws = s.draws := rfl
@[simp] theorem setCsum_nIbuf (v : Byte) (s : State) : (setCsum v s).nIbuf = s.nIbuf := rfl

/-! ### setOutLen -/

@[simp] theorem setOutLen_busy (v : BitVec 9) (s : State) : (setOutLen v s).busy = s.busy := (rfl)
@[simp] theorem setOutLen_done (v : BitVec 9) (s : State) : (setOutLen v s).done = s.done := (rfl)
@[simp] theorem setOutLen_err (v : BitVec 9) (s : State) : (setOutLen v s).err = s.err := (rfl)
@[simp] theorem setOutLen_valid (v : BitVec 9) (s : State) : (setOutLen v s).valid = s.valid := (rfl)
@[simp] theorem setOutLen_errCode (v : BitVec 9) (s : State) : (setOutLen v s).errCode = s.errCode := rfl
@[simp] theorem setOutLen_aerr (v : BitVec 9) (s : State) : (setOutLen v s).aerr = s.aerr := (rfl)
@[simp] theorem setOutLen_inLen (v : BitVec 9) (s : State) : (setOutLen v s).inLen = s.inLen := rfl
@[simp] theorem setOutLen_csLen (v : BitVec 9) (s : State) : (setOutLen v s).csLen = s.csLen := rfl
@[simp] theorem setOutLen_csum (v : BitVec 9) (s : State) : (setOutLen v s).csum = s.csum := rfl
@[simp] theorem setOutLen_outLen (v : BitVec 9) (s : State) : (setOutLen v s).outLen = v := rfl
@[simp] theorem setOutLen_resCount (v : BitVec 9) (s : State) : (setOutLen v s).resCount = s.resCount := rfl
@[simp] theorem setOutLen_param (v : BitVec 9) (s : State) : (setOutLen v s).param = s.param := rfl
@[simp] theorem setOutLen_pending (v : BitVec 9) (s : State) : (setOutLen v s).pending = s.pending := rfl
@[simp] theorem setOutLen_ibuf (v : BitVec 9) (s : State) : (setOutLen v s).ibuf = s.ibuf := rfl
@[simp] theorem setOutLen_obuf (v : BitVec 9) (s : State) : (setOutLen v s).obuf = s.obuf := rfl
@[simp] theorem setOutLen_rbuf (v : BitVec 9) (s : State) : (setOutLen v s).rbuf = s.rbuf := rfl
@[simp] theorem setOutLen_script (v : BitVec 9) (s : State) : (setOutLen v s).script = s.script := rfl
@[simp] theorem setOutLen_schedule (v : BitVec 9) (s : State) : (setOutLen v s).schedule = s.schedule := rfl
@[simp] theorem setOutLen_reply (v : BitVec 9) (s : State) : (setOutLen v s).reply = s.reply := rfl
@[simp] theorem setOutLen_draws (v : BitVec 9) (s : State) : (setOutLen v s).draws = s.draws := rfl
@[simp] theorem setOutLen_nIbuf (v : BitVec 9) (s : State) : (setOutLen v s).nIbuf = s.nIbuf := rfl

/-! ### setInLen -/

@[simp] theorem setInLen_busy (v : BitVec 23) (s : State) : (setInLen v s).busy = s.busy := (rfl)
@[simp] theorem setInLen_done (v : BitVec 23) (s : State) : (setInLen v s).done = s.done := (rfl)
@[simp] theorem setInLen_err (v : BitVec 23) (s : State) : (setInLen v s).err = s.err := (rfl)
@[simp] theorem setInLen_valid (v : BitVec 23) (s : State) : (setInLen v s).valid = s.valid := (rfl)
@[simp] theorem setInLen_errCode (v : BitVec 23) (s : State) : (setInLen v s).errCode = s.errCode := rfl
@[simp] theorem setInLen_aerr (v : BitVec 23) (s : State) : (setInLen v s).aerr = s.aerr := (rfl)
@[simp] theorem setInLen_inLen (v : BitVec 23) (s : State) : (setInLen v s).inLen = v := rfl
@[simp] theorem setInLen_csLen (v : BitVec 23) (s : State) : (setInLen v s).csLen = s.csLen := rfl
@[simp] theorem setInLen_csum (v : BitVec 23) (s : State) : (setInLen v s).csum = s.csum := rfl
@[simp] theorem setInLen_outLen (v : BitVec 23) (s : State) : (setInLen v s).outLen = s.outLen := rfl
@[simp] theorem setInLen_resCount (v : BitVec 23) (s : State) : (setInLen v s).resCount = s.resCount := rfl
@[simp] theorem setInLen_param (v : BitVec 23) (s : State) : (setInLen v s).param = s.param := rfl
@[simp] theorem setInLen_pending (v : BitVec 23) (s : State) : (setInLen v s).pending = s.pending := rfl
@[simp] theorem setInLen_ibuf (v : BitVec 23) (s : State) : (setInLen v s).ibuf = s.ibuf := rfl
@[simp] theorem setInLen_obuf (v : BitVec 23) (s : State) : (setInLen v s).obuf = s.obuf := rfl
@[simp] theorem setInLen_rbuf (v : BitVec 23) (s : State) : (setInLen v s).rbuf = s.rbuf := rfl
@[simp] theorem setInLen_script (v : BitVec 23) (s : State) : (setInLen v s).script = s.script := rfl
@[simp] theorem setInLen_schedule (v : BitVec 23) (s : State) : (setInLen v s).schedule = s.schedule := rfl
@[simp] theorem setInLen_reply (v : BitVec 23) (s : State) : (setInLen v s).reply = s.reply := rfl
@[simp] theorem setInLen_draws (v : BitVec 23) (s : State) : (setInLen v s).draws = s.draws := rfl
@[simp] theorem setInLen_nIbuf (v : BitVec 23) (s : State) : (setInLen v s).nIbuf = s.nIbuf := rfl

/-! ### setCsLen -/

@[simp] theorem setCsLen_busy (v : BitVec 8) (s : State) : (setCsLen v s).busy = s.busy := (rfl)
@[simp] theorem setCsLen_done (v : BitVec 8) (s : State) : (setCsLen v s).done = s.done := (rfl)
@[simp] theorem setCsLen_err (v : BitVec 8) (s : State) : (setCsLen v s).err = s.err := (rfl)
@[simp] theorem setCsLen_valid (v : BitVec 8) (s : State) : (setCsLen v s).valid = s.valid := (rfl)
@[simp] theorem setCsLen_errCode (v : BitVec 8) (s : State) : (setCsLen v s).errCode = s.errCode := rfl
@[simp] theorem setCsLen_aerr (v : BitVec 8) (s : State) : (setCsLen v s).aerr = s.aerr := (rfl)
@[simp] theorem setCsLen_inLen (v : BitVec 8) (s : State) : (setCsLen v s).inLen = s.inLen := rfl
@[simp] theorem setCsLen_csLen (v : BitVec 8) (s : State) : (setCsLen v s).csLen = v := rfl
@[simp] theorem setCsLen_csum (v : BitVec 8) (s : State) : (setCsLen v s).csum = s.csum := rfl
@[simp] theorem setCsLen_outLen (v : BitVec 8) (s : State) : (setCsLen v s).outLen = s.outLen := rfl
@[simp] theorem setCsLen_resCount (v : BitVec 8) (s : State) : (setCsLen v s).resCount = s.resCount := rfl
@[simp] theorem setCsLen_param (v : BitVec 8) (s : State) : (setCsLen v s).param = s.param := rfl
@[simp] theorem setCsLen_pending (v : BitVec 8) (s : State) : (setCsLen v s).pending = s.pending := rfl
@[simp] theorem setCsLen_ibuf (v : BitVec 8) (s : State) : (setCsLen v s).ibuf = s.ibuf := rfl
@[simp] theorem setCsLen_obuf (v : BitVec 8) (s : State) : (setCsLen v s).obuf = s.obuf := rfl
@[simp] theorem setCsLen_rbuf (v : BitVec 8) (s : State) : (setCsLen v s).rbuf = s.rbuf := rfl
@[simp] theorem setCsLen_script (v : BitVec 8) (s : State) : (setCsLen v s).script = s.script := rfl
@[simp] theorem setCsLen_schedule (v : BitVec 8) (s : State) : (setCsLen v s).schedule = s.schedule := rfl
@[simp] theorem setCsLen_reply (v : BitVec 8) (s : State) : (setCsLen v s).reply = s.reply := rfl
@[simp] theorem setCsLen_draws (v : BitVec 8) (s : State) : (setCsLen v s).draws = s.draws := rfl
@[simp] theorem setCsLen_nIbuf (v : BitVec 8) (s : State) : (setCsLen v s).nIbuf = s.nIbuf := rfl

/-! ### setValid -/

@[simp] theorem setValid_busy (v : Bool) (s : State) : (setValid v s).busy = s.busy := (rfl)
@[simp] theorem setValid_done (v : Bool) (s : State) : (setValid v s).done = s.done := (rfl)
@[simp] theorem setValid_err (v : Bool) (s : State) : (setValid v s).err = s.err := (rfl)
@[simp] theorem setValid_valid (v : Bool) (s : State) : (setValid v s).valid = v := (rfl)
@[simp] theorem setValid_errCode (v : Bool) (s : State) : (setValid v s).errCode = s.errCode := rfl
@[simp] theorem setValid_aerr (v : Bool) (s : State) : (setValid v s).aerr = s.aerr := (rfl)
@[simp] theorem setValid_inLen (v : Bool) (s : State) : (setValid v s).inLen = s.inLen := rfl
@[simp] theorem setValid_csLen (v : Bool) (s : State) : (setValid v s).csLen = s.csLen := rfl
@[simp] theorem setValid_csum (v : Bool) (s : State) : (setValid v s).csum = s.csum := rfl
@[simp] theorem setValid_outLen (v : Bool) (s : State) : (setValid v s).outLen = s.outLen := rfl
@[simp] theorem setValid_resCount (v : Bool) (s : State) : (setValid v s).resCount = s.resCount := rfl
@[simp] theorem setValid_param (v : Bool) (s : State) : (setValid v s).param = s.param := rfl
@[simp] theorem setValid_pending (v : Bool) (s : State) : (setValid v s).pending = s.pending := rfl
@[simp] theorem setValid_ibuf (v : Bool) (s : State) : (setValid v s).ibuf = s.ibuf := rfl
@[simp] theorem setValid_obuf (v : Bool) (s : State) : (setValid v s).obuf = s.obuf := rfl
@[simp] theorem setValid_rbuf (v : Bool) (s : State) : (setValid v s).rbuf = s.rbuf := rfl
@[simp] theorem setValid_script (v : Bool) (s : State) : (setValid v s).script = s.script := rfl
@[simp] theorem setValid_schedule (v : Bool) (s : State) : (setValid v s).schedule = s.schedule := rfl
@[simp] theorem setValid_reply (v : Bool) (s : State) : (setValid v s).reply = s.reply := rfl
@[simp] theorem setValid_draws (v : Bool) (s : State) : (setValid v s).draws = s.draws := rfl
@[simp] theorem setValid_nIbuf (v : Bool) (s : State) : (setValid v s).nIbuf = s.nIbuf := rfl

/-! ### clearAerr -/

@[simp] theorem clearAerr_busy (s : State) : (clearAerr s).busy = s.busy := (rfl)
@[simp] theorem clearAerr_done (s : State) : (clearAerr s).done = s.done := (rfl)
@[simp] theorem clearAerr_err (s : State) : (clearAerr s).err = s.err := (rfl)
@[simp] theorem clearAerr_valid (s : State) : (clearAerr s).valid = s.valid := (rfl)
@[simp] theorem clearAerr_errCode (s : State) : (clearAerr s).errCode = s.errCode := rfl
@[simp] theorem clearAerr_aerr (s : State) : (clearAerr s).aerr = false := (rfl)
@[simp] theorem clearAerr_inLen (s : State) : (clearAerr s).inLen = s.inLen := rfl
@[simp] theorem clearAerr_csLen (s : State) : (clearAerr s).csLen = s.csLen := rfl
@[simp] theorem clearAerr_csum (s : State) : (clearAerr s).csum = s.csum := rfl
@[simp] theorem clearAerr_outLen (s : State) : (clearAerr s).outLen = s.outLen := rfl
@[simp] theorem clearAerr_resCount (s : State) : (clearAerr s).resCount = s.resCount := rfl
@[simp] theorem clearAerr_param (s : State) : (clearAerr s).param = s.param := rfl
@[simp] theorem clearAerr_pending (s : State) : (clearAerr s).pending = s.pending := rfl
@[simp] theorem clearAerr_ibuf (s : State) : (clearAerr s).ibuf = s.ibuf := rfl
@[simp] theorem clearAerr_obuf (s : State) : (clearAerr s).obuf = s.obuf := rfl
@[simp] theorem clearAerr_rbuf (s : State) : (clearAerr s).rbuf = s.rbuf := rfl
@[simp] theorem clearAerr_script (s : State) : (clearAerr s).script = s.script := rfl
@[simp] theorem clearAerr_schedule (s : State) : (clearAerr s).schedule = s.schedule := rfl
@[simp] theorem clearAerr_reply (s : State) : (clearAerr s).reply = s.reply := rfl
@[simp] theorem clearAerr_draws (s : State) : (clearAerr s).draws = s.draws := rfl
@[simp] theorem clearAerr_nIbuf (s : State) : (clearAerr s).nIbuf = s.nIbuf := rfl

/-! ### storeIbuf -/

@[simp] theorem storeIbuf_busy (i : Nat) (b : Byte) (s : State) : (storeIbuf i b s).busy = s.busy := (rfl)
@[simp] theorem storeIbuf_done (i : Nat) (b : Byte) (s : State) : (storeIbuf i b s).done = s.done := (rfl)
@[simp] theorem storeIbuf_err (i : Nat) (b : Byte) (s : State) : (storeIbuf i b s).err = s.err := (rfl)
@[simp] theorem storeIbuf_valid (i : Nat) (b : Byte) (s : State) : (storeIbuf i b s).valid = s.valid := (rfl)
@[simp] theorem storeIbuf_errCode (i : Nat) (b : Byte) (s : State) : (storeIbuf i b s).errCode = s.errCode := rfl
@[simp] theorem storeIbuf_aerr (i : Nat) (b : Byte) (s : State) : (storeIbuf i b s).aerr = s.aerr := (rfl)
@[simp] theorem storeIbuf_inLen (i : Nat) (b : Byte) (s : State) : (storeIbuf i b s).inLen = s.inLen := rfl
@[simp] theorem storeIbuf_csLen (i : Nat) (b : Byte) (s : State) : (storeIbuf i b s).csLen = s.csLen := rfl
@[simp] theorem storeIbuf_csum (i : Nat) (b : Byte) (s : State) : (storeIbuf i b s).csum = s.csum := rfl
@[simp] theorem storeIbuf_outLen (i : Nat) (b : Byte) (s : State) : (storeIbuf i b s).outLen = s.outLen := rfl
@[simp] theorem storeIbuf_resCount (i : Nat) (b : Byte) (s : State) : (storeIbuf i b s).resCount = s.resCount := rfl
@[simp] theorem storeIbuf_param (i : Nat) (b : Byte) (s : State) : (storeIbuf i b s).param = s.param := rfl
@[simp] theorem storeIbuf_pending (i : Nat) (b : Byte) (s : State) : (storeIbuf i b s).pending = s.pending := rfl
@[simp] theorem storeIbuf_ibuf (i : Nat) (b : Byte) (s : State) : (storeIbuf i b s).ibuf = Memory.write s.ibuf i b := rfl
@[simp] theorem storeIbuf_obuf (i : Nat) (b : Byte) (s : State) : (storeIbuf i b s).obuf = s.obuf := rfl
@[simp] theorem storeIbuf_rbuf (i : Nat) (b : Byte) (s : State) : (storeIbuf i b s).rbuf = s.rbuf := rfl
@[simp] theorem storeIbuf_script (i : Nat) (b : Byte) (s : State) : (storeIbuf i b s).script = s.script := rfl
@[simp] theorem storeIbuf_schedule (i : Nat) (b : Byte) (s : State) : (storeIbuf i b s).schedule = s.schedule := rfl
@[simp] theorem storeIbuf_reply (i : Nat) (b : Byte) (s : State) : (storeIbuf i b s).reply = s.reply := rfl
@[simp] theorem storeIbuf_draws (i : Nat) (b : Byte) (s : State) : (storeIbuf i b s).draws = s.draws := rfl
@[simp] theorem storeIbuf_nIbuf (i : Nat) (b : Byte) (s : State) : (storeIbuf i b s).nIbuf = s.nIbuf := rfl

/-! ### setScript -/

@[simp] theorem setScript_busy (rest : List ScriptItem) (s : State) : (setScript rest s).busy = s.busy := (rfl)
@[simp] theorem setScript_done (rest : List ScriptItem) (s : State) : (setScript rest s).done = s.done := (rfl)
@[simp] theorem setScript_err (rest : List ScriptItem) (s : State) : (setScript rest s).err = s.err := (rfl)
@[simp] theorem setScript_valid (rest : List ScriptItem) (s : State) : (setScript rest s).valid = s.valid := (rfl)
@[simp] theorem setScript_errCode (rest : List ScriptItem) (s : State) : (setScript rest s).errCode = s.errCode := rfl
@[simp] theorem setScript_aerr (rest : List ScriptItem) (s : State) : (setScript rest s).aerr = s.aerr := (rfl)
@[simp] theorem setScript_inLen (rest : List ScriptItem) (s : State) : (setScript rest s).inLen = s.inLen := rfl
@[simp] theorem setScript_csLen (rest : List ScriptItem) (s : State) : (setScript rest s).csLen = s.csLen := rfl
@[simp] theorem setScript_csum (rest : List ScriptItem) (s : State) : (setScript rest s).csum = s.csum := rfl
@[simp] theorem setScript_outLen (rest : List ScriptItem) (s : State) : (setScript rest s).outLen = s.outLen := rfl
@[simp] theorem setScript_resCount (rest : List ScriptItem) (s : State) : (setScript rest s).resCount = s.resCount := rfl
@[simp] theorem setScript_param (rest : List ScriptItem) (s : State) : (setScript rest s).param = s.param := rfl
@[simp] theorem setScript_pending (rest : List ScriptItem) (s : State) : (setScript rest s).pending = s.pending := rfl
@[simp] theorem setScript_ibuf (rest : List ScriptItem) (s : State) : (setScript rest s).ibuf = s.ibuf := rfl
@[simp] theorem setScript_obuf (rest : List ScriptItem) (s : State) : (setScript rest s).obuf = s.obuf := rfl
@[simp] theorem setScript_rbuf (rest : List ScriptItem) (s : State) : (setScript rest s).rbuf = s.rbuf := rfl
@[simp] theorem setScript_script (rest : List ScriptItem) (s : State) : (setScript rest s).script = rest := rfl
@[simp] theorem setScript_schedule (rest : List ScriptItem) (s : State) : (setScript rest s).schedule = s.schedule := rfl
@[simp] theorem setScript_reply (rest : List ScriptItem) (s : State) : (setScript rest s).reply = s.reply := rfl
@[simp] theorem setScript_draws (rest : List ScriptItem) (s : State) : (setScript rest s).draws = s.draws := rfl
@[simp] theorem setScript_nIbuf (rest : List ScriptItem) (s : State) : (setScript rest s).nIbuf = s.nIbuf := rfl

/-! ### accessError -/

@[simp] theorem accessError_busy (s : State) : (accessError s).busy = s.busy := (rfl)
@[simp] theorem accessError_done (s : State) : (accessError s).done = s.done := (rfl)
@[simp] theorem accessError_err (s : State) : (accessError s).err = s.err := (rfl)
@[simp] theorem accessError_valid (s : State) : (accessError s).valid = s.valid := (rfl)
@[simp] theorem accessError_errCode (s : State) : (accessError s).errCode = s.errCode := rfl
@[simp] theorem accessError_aerr (s : State) : (accessError s).aerr = true := (rfl)
@[simp] theorem accessError_inLen (s : State) : (accessError s).inLen = s.inLen := rfl
@[simp] theorem accessError_csLen (s : State) : (accessError s).csLen = s.csLen := rfl
@[simp] theorem accessError_csum (s : State) : (accessError s).csum = s.csum := rfl
@[simp] theorem accessError_outLen (s : State) : (accessError s).outLen = s.outLen := rfl
@[simp] theorem accessError_resCount (s : State) : (accessError s).resCount = s.resCount := rfl
@[simp] theorem accessError_param (s : State) : (accessError s).param = s.param := rfl
@[simp] theorem accessError_pending (s : State) : (accessError s).pending = s.pending := rfl
@[simp] theorem accessError_ibuf (s : State) : (accessError s).ibuf = s.ibuf := rfl
@[simp] theorem accessError_obuf (s : State) : (accessError s).obuf = s.obuf := rfl
@[simp] theorem accessError_rbuf (s : State) : (accessError s).rbuf = s.rbuf := rfl
@[simp] theorem accessError_script (s : State) : (accessError s).script = s.script := rfl
@[simp] theorem accessError_schedule (s : State) : (accessError s).schedule = s.schedule := rfl
@[simp] theorem accessError_reply (s : State) : (accessError s).reply = s.reply := rfl
@[simp] theorem accessError_draws (s : State) : (accessError s).draws = s.draws := rfl
@[simp] theorem accessError_nIbuf (s : State) : (accessError s).nIbuf = s.nIbuf := rfl

/-! ### raiseError -/

@[simp] theorem raiseError_busy (c : BitVec 4) (s : State) : (raiseError c s).busy = false := (rfl)
@[simp] theorem raiseError_done (c : BitVec 4) (s : State) : (raiseError c s).done = true := (rfl)
@[simp] theorem raiseError_err (c : BitVec 4) (s : State) : (raiseError c s).err = true := (rfl)
@[simp] theorem raiseError_valid (c : BitVec 4) (s : State) : (raiseError c s).valid = s.valid := (rfl)
@[simp] theorem raiseError_errCode (c : BitVec 4) (s : State) : (raiseError c s).errCode = c := rfl
@[simp] theorem raiseError_aerr (c : BitVec 4) (s : State) : (raiseError c s).aerr = s.aerr := (rfl)
@[simp] theorem raiseError_inLen (c : BitVec 4) (s : State) : (raiseError c s).inLen = s.inLen := rfl
@[simp] theorem raiseError_csLen (c : BitVec 4) (s : State) : (raiseError c s).csLen = s.csLen := rfl
@[simp] theorem raiseError_csum (c : BitVec 4) (s : State) : (raiseError c s).csum = s.csum := rfl
@[simp] theorem raiseError_outLen (c : BitVec 4) (s : State) : (raiseError c s).outLen = s.outLen := rfl
@[simp] theorem raiseError_resCount (c : BitVec 4) (s : State) : (raiseError c s).resCount = s.resCount := rfl
@[simp] theorem raiseError_param (c : BitVec 4) (s : State) : (raiseError c s).param = s.param := rfl
@[simp] theorem raiseError_pending (c : BitVec 4) (s : State) : (raiseError c s).pending = s.pending := rfl
@[simp] theorem raiseError_ibuf (c : BitVec 4) (s : State) : (raiseError c s).ibuf = s.ibuf := rfl
@[simp] theorem raiseError_obuf (c : BitVec 4) (s : State) : (raiseError c s).obuf = s.obuf := rfl
@[simp] theorem raiseError_rbuf (c : BitVec 4) (s : State) : (raiseError c s).rbuf = s.rbuf := rfl
@[simp] theorem raiseError_script (c : BitVec 4) (s : State) : (raiseError c s).script = s.script := rfl
@[simp] theorem raiseError_schedule (c : BitVec 4) (s : State) : (raiseError c s).schedule = s.schedule := rfl
@[simp] theorem raiseError_reply (c : BitVec 4) (s : State) : (raiseError c s).reply = s.reply := rfl
@[simp] theorem raiseError_draws (c : BitVec 4) (s : State) : (raiseError c s).draws = s.draws := rfl
@[simp] theorem raiseError_nIbuf (c : BitVec 4) (s : State) : (raiseError c s).nIbuf = s.nIbuf := rfl

/-! ### accept -/

@[simp] theorem accept_busy (op : Op) (s : State) : (accept op s).busy = true := (rfl)
@[simp] theorem accept_done (op : Op) (s : State) : (accept op s).done = false := (rfl)
@[simp] theorem accept_err (op : Op) (s : State) : (accept op s).err = false := (rfl)
@[simp] theorem accept_valid (op : Op) (s : State) : (accept op s).valid = false := (rfl)
@[simp] theorem accept_errCode (op : Op) (s : State) : (accept op s).errCode = 0#4 := rfl
@[simp] theorem accept_aerr (op : Op) (s : State) : (accept op s).aerr = s.aerr := (rfl)
@[simp] theorem accept_inLen (op : Op) (s : State) : (accept op s).inLen = s.inLen := rfl
@[simp] theorem accept_csLen (op : Op) (s : State) : (accept op s).csLen = s.csLen := rfl
@[simp] theorem accept_csum (op : Op) (s : State) : (accept op s).csum = s.csum := rfl
@[simp] theorem accept_outLen (op : Op) (s : State) : (accept op s).outLen = s.outLen := rfl
@[simp] theorem accept_resCount (op : Op) (s : State) : (accept op s).resCount = s.resCount := rfl
@[simp] theorem accept_param (op : Op) (s : State) : (accept op s).param = s.param := rfl
@[simp] theorem accept_pending (op : Op) (s : State) : (accept op s).pending = op := rfl
@[simp] theorem accept_ibuf (op : Op) (s : State) : (accept op s).ibuf = s.ibuf := rfl
@[simp] theorem accept_obuf (op : Op) (s : State) : (accept op s).obuf = s.obuf := rfl
@[simp] theorem accept_rbuf (op : Op) (s : State) : (accept op s).rbuf = s.rbuf := rfl
@[simp] theorem accept_script (op : Op) (s : State) : (accept op s).script = s.script := rfl
@[simp] theorem accept_schedule (op : Op) (s : State) : (accept op s).schedule = s.schedule := rfl
@[simp] theorem accept_reply (op : Op) (s : State) : (accept op s).reply = s.reply := rfl
@[simp] theorem accept_draws (op : Op) (s : State) : (accept op s).draws = s.draws := rfl
@[simp] theorem accept_nIbuf (op : Op) (s : State) : (accept op s).nIbuf = s.nIbuf := rfl

/-! ### complete -/

@[simp] theorem complete_busy (s : State) : (complete s).busy = false := (rfl)
@[simp] theorem complete_done (s : State) : (complete s).done = true := (rfl)
@[simp] theorem complete_err (s : State) : (complete s).err = s.err := (rfl)
@[simp] theorem complete_valid (s : State) : (complete s).valid = s.valid := (rfl)
@[simp] theorem complete_errCode (s : State) : (complete s).errCode = s.errCode := rfl
@[simp] theorem complete_aerr (s : State) : (complete s).aerr = s.aerr := (rfl)
@[simp] theorem complete_inLen (s : State) : (complete s).inLen = s.inLen := rfl
@[simp] theorem complete_csLen (s : State) : (complete s).csLen = s.csLen := rfl
@[simp] theorem complete_csum (s : State) : (complete s).csum = s.csum := rfl
@[simp] theorem complete_outLen (s : State) : (complete s).outLen = s.outLen := rfl
@[simp] theorem complete_resCount (s : State) : (complete s).resCount = s.resCount := rfl
@[simp] theorem complete_param (s : State) : (complete s).param = s.param := rfl
@[simp] theorem complete_pending (s : State) : (complete s).pending = s.pending := rfl
@[simp] theorem complete_ibuf (s : State) : (complete s).ibuf = s.ibuf := rfl
@[simp] theorem complete_obuf (s : State) : (complete s).obuf = s.obuf := rfl
@[simp] theorem complete_rbuf (s : State) : (complete s).rbuf = s.rbuf := rfl
@[simp] theorem complete_script (s : State) : (complete s).script = s.script := rfl
@[simp] theorem complete_schedule (s : State) : (complete s).schedule = s.schedule := rfl
@[simp] theorem complete_reply (s : State) : (complete s).reply = s.reply := rfl
@[simp] theorem complete_draws (s : State) : (complete s).draws = s.draws := rfl
@[simp] theorem complete_nIbuf (s : State) : (complete s).nIbuf = s.nIbuf := rfl

/-! ### resetBlock -/

@[simp] theorem resetBlock_busy (s : State) : (resetBlock s).busy = false := (rfl)
@[simp] theorem resetBlock_done (s : State) : (resetBlock s).done = false := (rfl)
@[simp] theorem resetBlock_err (s : State) : (resetBlock s).err = false := (rfl)
@[simp] theorem resetBlock_valid (s : State) : (resetBlock s).valid = false := (rfl)
@[simp] theorem resetBlock_errCode (s : State) : (resetBlock s).errCode = 0#4 := rfl
@[simp] theorem resetBlock_aerr (s : State) : (resetBlock s).aerr = false := (rfl)
@[simp] theorem resetBlock_inLen (s : State) : (resetBlock s).inLen = 0#23 := rfl
@[simp] theorem resetBlock_csLen (s : State) : (resetBlock s).csLen = 0#8 := rfl
@[simp] theorem resetBlock_csum (s : State) : (resetBlock s).csum = 0#8 := rfl
@[simp] theorem resetBlock_outLen (s : State) : (resetBlock s).outLen = 0#9 := rfl
@[simp] theorem resetBlock_resCount (s : State) : (resetBlock s).resCount = 0#23 := rfl
@[simp] theorem resetBlock_param (s : State) : (resetBlock s).param = s.param := rfl
@[simp] theorem resetBlock_pending (s : State) : (resetBlock s).pending = Config.freePending s.draws := rfl
@[simp] theorem resetBlock_ibuf (s : State) : (resetBlock s).ibuf = [] := rfl
@[simp] theorem resetBlock_obuf (s : State) : (resetBlock s).obuf = [] := rfl
@[simp] theorem resetBlock_rbuf (s : State) : (resetBlock s).rbuf = [] := rfl
@[simp] theorem resetBlock_script (s : State) : (resetBlock s).script = s.script := rfl
@[simp] theorem resetBlock_schedule (s : State) : (resetBlock s).schedule = s.schedule := rfl
@[simp] theorem resetBlock_reply (s : State) : (resetBlock s).reply = s.reply := rfl
@[simp] theorem resetBlock_draws (s : State) : (resetBlock s).draws = s.draws + 1 := rfl
@[simp] theorem resetBlock_nIbuf (s : State) : (resetBlock s).nIbuf = s.nIbuf := rfl

/-! ### answer -/

@[simp] theorem answer_busy (r : Reply) (s : State) : (answer r s).busy = s.busy := (rfl)
@[simp] theorem answer_done (r : Reply) (s : State) : (answer r s).done = s.done := (rfl)
@[simp] theorem answer_err (r : Reply) (s : State) : (answer r s).err = s.err := (rfl)
@[simp] theorem answer_valid (r : Reply) (s : State) : (answer r s).valid = s.valid := (rfl)
@[simp] theorem answer_errCode (r : Reply) (s : State) : (answer r s).errCode = s.errCode := rfl
@[simp] theorem answer_aerr (r : Reply) (s : State) : (answer r s).aerr = s.aerr := (rfl)
@[simp] theorem answer_inLen (r : Reply) (s : State) : (answer r s).inLen = s.inLen := rfl
@[simp] theorem answer_csLen (r : Reply) (s : State) : (answer r s).csLen = s.csLen := rfl
@[simp] theorem answer_csum (r : Reply) (s : State) : (answer r s).csum = s.csum := rfl
@[simp] theorem answer_outLen (r : Reply) (s : State) : (answer r s).outLen = s.outLen := rfl
@[simp] theorem answer_resCount (r : Reply) (s : State) : (answer r s).resCount = s.resCount := rfl
@[simp] theorem answer_param (r : Reply) (s : State) : (answer r s).param = s.param := rfl
@[simp] theorem answer_pending (r : Reply) (s : State) : (answer r s).pending = s.pending := rfl
@[simp] theorem answer_ibuf (r : Reply) (s : State) : (answer r s).ibuf = s.ibuf := rfl
@[simp] theorem answer_obuf (r : Reply) (s : State) : (answer r s).obuf = s.obuf := rfl
@[simp] theorem answer_rbuf (r : Reply) (s : State) : (answer r s).rbuf = s.rbuf := rfl
@[simp] theorem answer_script (r : Reply) (s : State) : (answer r s).script = s.script := rfl
@[simp] theorem answer_schedule (r : Reply) (s : State) : (answer r s).schedule = s.schedule := rfl
@[simp] theorem answer_reply (r : Reply) (s : State) : (answer r s).reply = some r := rfl
@[simp] theorem answer_draws (r : Reply) (s : State) : (answer r s).draws = s.draws := rfl
@[simp] theorem answer_nIbuf (r : Reply) (s : State) : (answer r s).nIbuf = s.nIbuf := rfl

/-! ### answerFreeWord -/

@[simp] theorem answerFreeWord_busy (s : State) : (answerFreeWord s).busy = s.busy := (rfl)
@[simp] theorem answerFreeWord_done (s : State) : (answerFreeWord s).done = s.done := (rfl)
@[simp] theorem answerFreeWord_err (s : State) : (answerFreeWord s).err = s.err := (rfl)
@[simp] theorem answerFreeWord_valid (s : State) : (answerFreeWord s).valid = s.valid := (rfl)
@[simp] theorem answerFreeWord_errCode (s : State) : (answerFreeWord s).errCode = s.errCode := rfl
@[simp] theorem answerFreeWord_aerr (s : State) : (answerFreeWord s).aerr = s.aerr := (rfl)
@[simp] theorem answerFreeWord_inLen (s : State) : (answerFreeWord s).inLen = s.inLen := rfl
@[simp] theorem answerFreeWord_csLen (s : State) : (answerFreeWord s).csLen = s.csLen := rfl
@[simp] theorem answerFreeWord_csum (s : State) : (answerFreeWord s).csum = s.csum := rfl
@[simp] theorem answerFreeWord_outLen (s : State) : (answerFreeWord s).outLen = s.outLen := rfl
@[simp] theorem answerFreeWord_resCount (s : State) : (answerFreeWord s).resCount = s.resCount := rfl
@[simp] theorem answerFreeWord_param (s : State) : (answerFreeWord s).param = s.param := rfl
@[simp] theorem answerFreeWord_pending (s : State) : (answerFreeWord s).pending = s.pending := rfl
@[simp] theorem answerFreeWord_ibuf (s : State) : (answerFreeWord s).ibuf = s.ibuf := rfl
@[simp] theorem answerFreeWord_obuf (s : State) : (answerFreeWord s).obuf = s.obuf := rfl
@[simp] theorem answerFreeWord_rbuf (s : State) : (answerFreeWord s).rbuf = s.rbuf := rfl
@[simp] theorem answerFreeWord_script (s : State) : (answerFreeWord s).script = s.script := rfl
@[simp] theorem answerFreeWord_schedule (s : State) : (answerFreeWord s).schedule = s.schedule := rfl
@[simp] theorem answerFreeWord_reply (s : State) : (answerFreeWord s).reply = some (.word (Config.freeWord s.draws)) := rfl
@[simp] theorem answerFreeWord_draws (s : State) : (answerFreeWord s).draws = s.draws + 1 := rfl
@[simp] theorem answerFreeWord_nIbuf (s : State) : (answerFreeWord s).nIbuf = s.nIbuf := rfl

/-! ### answerFreeByte -/

@[simp] theorem answerFreeByte_busy (s : State) : (answerFreeByte s).busy = s.busy := (rfl)
@[simp] theorem answerFreeByte_done (s : State) : (answerFreeByte s).done = s.done := (rfl)
@[simp] theorem answerFreeByte_err (s : State) : (answerFreeByte s).err = s.err := (rfl)
@[simp] theorem answerFreeByte_valid (s : State) : (answerFreeByte s).valid = s.valid := (rfl)
@[simp] theorem answerFreeByte_errCode (s : State) : (answerFreeByte s).errCode = s.errCode := rfl
@[simp] theorem answerFreeByte_aerr (s : State) : (answerFreeByte s).aerr = s.aerr := (rfl)
@[simp] theorem answerFreeByte_inLen (s : State) : (answerFreeByte s).inLen = s.inLen := rfl
@[simp] theorem answerFreeByte_csLen (s : State) : (answerFreeByte s).csLen = s.csLen := rfl
@[simp] theorem answerFreeByte_csum (s : State) : (answerFreeByte s).csum = s.csum := rfl
@[simp] theorem answerFreeByte_outLen (s : State) : (answerFreeByte s).outLen = s.outLen := rfl
@[simp] theorem answerFreeByte_resCount (s : State) : (answerFreeByte s).resCount = s.resCount := rfl
@[simp] theorem answerFreeByte_param (s : State) : (answerFreeByte s).param = s.param := rfl
@[simp] theorem answerFreeByte_pending (s : State) : (answerFreeByte s).pending = s.pending := rfl
@[simp] theorem answerFreeByte_ibuf (s : State) : (answerFreeByte s).ibuf = s.ibuf := rfl
@[simp] theorem answerFreeByte_obuf (s : State) : (answerFreeByte s).obuf = s.obuf := rfl
@[simp] theorem answerFreeByte_rbuf (s : State) : (answerFreeByte s).rbuf = s.rbuf := rfl
@[simp] theorem answerFreeByte_script (s : State) : (answerFreeByte s).script = s.script := rfl
@[simp] theorem answerFreeByte_schedule (s : State) : (answerFreeByte s).schedule = s.schedule := rfl
@[simp] theorem answerFreeByte_reply (s : State) : (answerFreeByte s).reply = some (.byte (Config.freeByte s.draws)) := rfl
@[simp] theorem answerFreeByte_draws (s : State) : (answerFreeByte s).draws = s.draws + 1 := rfl
@[simp] theorem answerFreeByte_nIbuf (s : State) : (answerFreeByte s).nIbuf = s.nIbuf := rfl

/-! ### noAnswer -/

@[simp] theorem noAnswer_busy (s : State) : (noAnswer s).busy = s.busy := (rfl)
@[simp] theorem noAnswer_done (s : State) : (noAnswer s).done = s.done := (rfl)
@[simp] theorem noAnswer_err (s : State) : (noAnswer s).err = s.err := (rfl)
@[simp] theorem noAnswer_valid (s : State) : (noAnswer s).valid = s.valid := (rfl)
@[simp] theorem noAnswer_errCode (s : State) : (noAnswer s).errCode = s.errCode := rfl
@[simp] theorem noAnswer_aerr (s : State) : (noAnswer s).aerr = s.aerr := (rfl)
@[simp] theorem noAnswer_inLen (s : State) : (noAnswer s).inLen = s.inLen := rfl
@[simp] theorem noAnswer_csLen (s : State) : (noAnswer s).csLen = s.csLen := rfl
@[simp] theorem noAnswer_csum (s : State) : (noAnswer s).csum = s.csum := rfl
@[simp] theorem noAnswer_outLen (s : State) : (noAnswer s).outLen = s.outLen := rfl
@[simp] theorem noAnswer_resCount (s : State) : (noAnswer s).resCount = s.resCount := rfl
@[simp] theorem noAnswer_param (s : State) : (noAnswer s).param = s.param := rfl
@[simp] theorem noAnswer_pending (s : State) : (noAnswer s).pending = s.pending := rfl
@[simp] theorem noAnswer_ibuf (s : State) : (noAnswer s).ibuf = s.ibuf := rfl
@[simp] theorem noAnswer_obuf (s : State) : (noAnswer s).obuf = s.obuf := rfl
@[simp] theorem noAnswer_rbuf (s : State) : (noAnswer s).rbuf = s.rbuf := rfl
@[simp] theorem noAnswer_script (s : State) : (noAnswer s).script = s.script := rfl
@[simp] theorem noAnswer_schedule (s : State) : (noAnswer s).schedule = s.schedule := rfl
@[simp] theorem noAnswer_reply (s : State) : (noAnswer s).reply = none := rfl
@[simp] theorem noAnswer_draws (s : State) : (noAnswer s).draws = s.draws := rfl
@[simp] theorem noAnswer_nIbuf (s : State) : (noAnswer s).nIbuf = s.nIbuf := rfl

/-! ### invalidRead -/

@[simp] theorem invalidRead_busy (z : Reply) (s : State) : (invalidRead z s).busy = s.busy := (rfl)
@[simp] theorem invalidRead_done (z : Reply) (s : State) : (invalidRead z s).done = s.done := (rfl)
@[simp] theorem invalidRead_err (z : Reply) (s : State) : (invalidRead z s).err = s.err := (rfl)
@[simp] theorem invalidRead_valid (z : Reply) (s : State) : (invalidRead z s).valid = s.valid := (rfl)
@[simp] theorem invalidRead_errCode (z : Reply) (s : State) : (invalidRead z s).errCode = s.errCode := rfl
@[simp] theorem invalidRead_aerr (z : Reply) (s : State) : (invalidRead z s).aerr = true := (rfl)
@[simp] theorem invalidRead_inLen (z : Reply) (s : State) : (invalidRead z s).inLen = s.inLen := rfl
@[simp] theorem invalidRead_csLen (z : Reply) (s : State) : (invalidRead z s).csLen = s.csLen := rfl
@[simp] theorem invalidRead_csum (z : Reply) (s : State) : (invalidRead z s).csum = s.csum := rfl
@[simp] theorem invalidRead_outLen (z : Reply) (s : State) : (invalidRead z s).outLen = s.outLen := rfl
@[simp] theorem invalidRead_resCount (z : Reply) (s : State) : (invalidRead z s).resCount = s.resCount := rfl
@[simp] theorem invalidRead_param (z : Reply) (s : State) : (invalidRead z s).param = s.param := rfl
@[simp] theorem invalidRead_pending (z : Reply) (s : State) : (invalidRead z s).pending = s.pending := rfl
@[simp] theorem invalidRead_ibuf (z : Reply) (s : State) : (invalidRead z s).ibuf = s.ibuf := rfl
@[simp] theorem invalidRead_obuf (z : Reply) (s : State) : (invalidRead z s).obuf = s.obuf := rfl
@[simp] theorem invalidRead_rbuf (z : Reply) (s : State) : (invalidRead z s).rbuf = s.rbuf := rfl
@[simp] theorem invalidRead_script (z : Reply) (s : State) : (invalidRead z s).script = s.script := rfl
@[simp] theorem invalidRead_schedule (z : Reply) (s : State) : (invalidRead z s).schedule = s.schedule := rfl
@[simp] theorem invalidRead_reply (z : Reply) (s : State) : (invalidRead z s).reply = some z := rfl
@[simp] theorem invalidRead_draws (z : Reply) (s : State) : (invalidRead z s).draws = s.draws := rfl
@[simp] theorem invalidRead_nIbuf (z : Reply) (s : State) : (invalidRead z s).nIbuf = s.nIbuf := rfl

/-! ### storeFrame -/

@[simp] theorem storeFrame_busy (p : List Byte) (s : State) : (storeFrame p s).busy = s.busy := (rfl)
@[simp] theorem storeFrame_done (p : List Byte) (s : State) : (storeFrame p s).done = s.done := (rfl)
@[simp] theorem storeFrame_err (p : List Byte) (s : State) : (storeFrame p s).err = s.err := (rfl)
@[simp] theorem storeFrame_valid (p : List Byte) (s : State) : (storeFrame p s).valid = s.valid := (rfl)
@[simp] theorem storeFrame_errCode (p : List Byte) (s : State) : (storeFrame p s).errCode = s.errCode := rfl
@[simp] theorem storeFrame_aerr (p : List Byte) (s : State) : (storeFrame p s).aerr = s.aerr := (rfl)
@[simp] theorem storeFrame_inLen (p : List Byte) (s : State) : (storeFrame p s).inLen = s.inLen := rfl
@[simp] theorem storeFrame_csLen (p : List Byte) (s : State) : (storeFrame p s).csLen = s.csLen := rfl
@[simp] theorem storeFrame_csum (p : List Byte) (s : State) : (storeFrame p s).csum = (frameOf p).checksum := rfl
@[simp] theorem storeFrame_outLen (p : List Byte) (s : State) : (storeFrame p s).outLen = BitVec.ofNat 9 (p.length + 3) := rfl
@[simp] theorem storeFrame_resCount (p : List Byte) (s : State) : (storeFrame p s).resCount = s.resCount := rfl
@[simp] theorem storeFrame_param (p : List Byte) (s : State) : (storeFrame p s).param = s.param := rfl
@[simp] theorem storeFrame_pending (p : List Byte) (s : State) : (storeFrame p s).pending = s.pending := rfl
@[simp] theorem storeFrame_ibuf (p : List Byte) (s : State) : (storeFrame p s).ibuf = s.ibuf := rfl
@[simp] theorem storeFrame_obuf (p : List Byte) (s : State) : (storeFrame p s).obuf = Memory.writeList s.obuf 0 (wireBytes (frameOf p)) := rfl
@[simp] theorem storeFrame_rbuf (p : List Byte) (s : State) : (storeFrame p s).rbuf = s.rbuf := rfl
@[simp] theorem storeFrame_script (p : List Byte) (s : State) : (storeFrame p s).script = s.script := rfl
@[simp] theorem storeFrame_schedule (p : List Byte) (s : State) : (storeFrame p s).schedule = s.schedule := rfl
@[simp] theorem storeFrame_reply (p : List Byte) (s : State) : (storeFrame p s).reply = s.reply := rfl
@[simp] theorem storeFrame_draws (p : List Byte) (s : State) : (storeFrame p s).draws = s.draws := rfl
@[simp] theorem storeFrame_nIbuf (p : List Byte) (s : State) : (storeFrame p s).nIbuf = s.nIbuf := rfl

/-! ### storeResult -/

@[simp] theorem storeResult_busy (r : List Entry) (s : State) : (storeResult r s).busy = s.busy := (rfl)
@[simp] theorem storeResult_done (r : List Entry) (s : State) : (storeResult r s).done = s.done := (rfl)
@[simp] theorem storeResult_err (r : List Entry) (s : State) : (storeResult r s).err = s.err := (rfl)
@[simp] theorem storeResult_valid (r : List Entry) (s : State) : (storeResult r s).valid = s.valid := (rfl)
@[simp] theorem storeResult_errCode (r : List Entry) (s : State) : (storeResult r s).errCode = s.errCode := rfl
@[simp] theorem storeResult_aerr (r : List Entry) (s : State) : (storeResult r s).aerr = s.aerr := (rfl)
@[simp] theorem storeResult_inLen (r : List Entry) (s : State) : (storeResult r s).inLen = s.inLen := rfl
@[simp] theorem storeResult_csLen (r : List Entry) (s : State) : (storeResult r s).csLen = s.csLen := rfl
@[simp] theorem storeResult_csum (r : List Entry) (s : State) : (storeResult r s).csum = s.csum := rfl
@[simp] theorem storeResult_outLen (r : List Entry) (s : State) : (storeResult r s).outLen = s.outLen := rfl
@[simp] theorem storeResult_resCount (r : List Entry) (s : State) : (storeResult r s).resCount = BitVec.ofNat 23 r.length := rfl
@[simp] theorem storeResult_param (r : List Entry) (s : State) : (storeResult r s).param = s.param := rfl
@[simp] theorem storeResult_pending (r : List Entry) (s : State) : (storeResult r s).pending = s.pending := rfl
@[simp] theorem storeResult_ibuf (r : List Entry) (s : State) : (storeResult r s).ibuf = s.ibuf := rfl
@[simp] theorem storeResult_obuf (r : List Entry) (s : State) : (storeResult r s).obuf = s.obuf := rfl
@[simp] theorem storeResult_rbuf (r : List Entry) (s : State) : (storeResult r s).rbuf = Memory.writeList s.rbuf 0 (r.map desc) := rfl
@[simp] theorem storeResult_script (r : List Entry) (s : State) : (storeResult r s).script = s.script := rfl
@[simp] theorem storeResult_schedule (r : List Entry) (s : State) : (storeResult r s).schedule = s.schedule := rfl
@[simp] theorem storeResult_reply (r : List Entry) (s : State) : (storeResult r s).reply = s.reply := rfl
@[simp] theorem storeResult_draws (r : List Entry) (s : State) : (storeResult r s).draws = s.draws := rfl
@[simp] theorem storeResult_nIbuf (r : List Entry) (s : State) : (storeResult r s).nIbuf = s.nIbuf := rfl

/-! ### illegalCommand -/

@[simp] theorem illegalCommand_busy (s : State) : (illegalCommand s).busy = false := (rfl)
@[simp] theorem illegalCommand_done (s : State) : (illegalCommand s).done = true := (rfl)
@[simp] theorem illegalCommand_err (s : State) : (illegalCommand s).err = true := (rfl)
@[simp] theorem illegalCommand_valid (s : State) : (illegalCommand s).valid = false := (rfl)
@[simp] theorem illegalCommand_errCode (s : State) : (illegalCommand s).errCode = illegalOp := rfl
@[simp] theorem illegalCommand_aerr (s : State) : (illegalCommand s).aerr = s.aerr := (rfl)
@[simp] theorem illegalCommand_inLen (s : State) : (illegalCommand s).inLen = s.inLen := rfl
@[simp] theorem illegalCommand_csLen (s : State) : (illegalCommand s).csLen = s.csLen := rfl
@[simp] theorem illegalCommand_csum (s : State) : (illegalCommand s).csum = s.csum := rfl
@[simp] theorem illegalCommand_outLen (s : State) : (illegalCommand s).outLen = s.outLen := rfl
@[simp] theorem illegalCommand_resCount (s : State) : (illegalCommand s).resCount = s.resCount := rfl
@[simp] theorem illegalCommand_param (s : State) : (illegalCommand s).param = s.param := rfl
@[simp] theorem illegalCommand_pending (s : State) : (illegalCommand s).pending = s.pending := rfl
@[simp] theorem illegalCommand_ibuf (s : State) : (illegalCommand s).ibuf = s.ibuf := rfl
@[simp] theorem illegalCommand_obuf (s : State) : (illegalCommand s).obuf = s.obuf := rfl
@[simp] theorem illegalCommand_rbuf (s : State) : (illegalCommand s).rbuf = s.rbuf := rfl
@[simp] theorem illegalCommand_script (s : State) : (illegalCommand s).script = s.script := rfl
@[simp] theorem illegalCommand_schedule (s : State) : (illegalCommand s).schedule = s.schedule := rfl
@[simp] theorem illegalCommand_reply (s : State) : (illegalCommand s).reply = s.reply := rfl
@[simp] theorem illegalCommand_draws (s : State) : (illegalCommand s).draws = s.draws := rfl
@[simp] theorem illegalCommand_nIbuf (s : State) : (illegalCommand s).nIbuf = s.nIbuf := rfl

/-! ### takeTurn -/

@[simp] theorem takeTurn_busy (s : State) : (takeTurn s).busy = s.busy := (rfl)
@[simp] theorem takeTurn_done (s : State) : (takeTurn s).done = s.done := (rfl)
@[simp] theorem takeTurn_err (s : State) : (takeTurn s).err = s.err := (rfl)
@[simp] theorem takeTurn_valid (s : State) : (takeTurn s).valid = s.valid := (rfl)
@[simp] theorem takeTurn_errCode (s : State) : (takeTurn s).errCode = s.errCode := rfl
@[simp] theorem takeTurn_aerr (s : State) : (takeTurn s).aerr = s.aerr := (rfl)
@[simp] theorem takeTurn_inLen (s : State) : (takeTurn s).inLen = s.inLen := rfl
@[simp] theorem takeTurn_csLen (s : State) : (takeTurn s).csLen = s.csLen := rfl
@[simp] theorem takeTurn_csum (s : State) : (takeTurn s).csum = s.csum := rfl
@[simp] theorem takeTurn_outLen (s : State) : (takeTurn s).outLen = s.outLen := rfl
@[simp] theorem takeTurn_resCount (s : State) : (takeTurn s).resCount = s.resCount := rfl
@[simp] theorem takeTurn_param (s : State) : (takeTurn s).param = s.param := rfl
@[simp] theorem takeTurn_pending (s : State) : (takeTurn s).pending = s.pending := rfl
@[simp] theorem takeTurn_ibuf (s : State) : (takeTurn s).ibuf = s.ibuf := rfl
@[simp] theorem takeTurn_obuf (s : State) : (takeTurn s).obuf = s.obuf := rfl
@[simp] theorem takeTurn_rbuf (s : State) : (takeTurn s).rbuf = s.rbuf := rfl
@[simp] theorem takeTurn_script (s : State) : (takeTurn s).script = s.script := rfl
@[simp] theorem takeTurn_schedule (s : State) : (takeTurn s).schedule = s.schedule.tail := rfl
@[simp] theorem takeTurn_reply (s : State) : (takeTurn s).reply = s.reply := rfl
@[simp] theorem takeTurn_draws (s : State) : (takeTurn s).draws = s.draws := rfl
@[simp] theorem takeTurn_nIbuf (s : State) : (takeTurn s).nIbuf = s.nIbuf := rfl

theorem nIbuf_eq (s : State) : s.nIbuf = s.param.toNat := rfl

theorem maxPayload_eq : maxPayload = 255 := rfl

theorem maxFrame_eq : maxFrame = 258 := rfl

end Sys2Proof.Machine
end

