-- ==== Sys2Proof/Laws/Exec.lean ====
section
/-! SUPPORT. What each shared operation of the commands can do, and everything exec can answer, said once. -/

namespace Sys2Proof.Machine

/-- The input slice is read as `p` exactly when IN is `p`. -/
theorem inputBytes_eq_some_iff {s : State} {p : List Byte} : inputBytes s = some p ↔ s.InputIs p := by
  rw [inputBytes, Memory.readList_eq_some_iff]
  constructor
  · rintro ⟨h1, h2⟩
    exact ⟨h1, fun i hi => by simpa using h2 i (h1 ▸ hi)⟩
  · rintro ⟨h1, h2⟩
    exact ⟨h1, fun i hi => by simpa using h2 i (h1 ▸ hi)⟩

/-- Reading the input slice fails exactly when a byte of it is not written. -/
theorem inputBytes_eq_none_iff {s : State} : inputBytes s = none ↔ ¬ s.InputWritten := by
  rw [inputBytes, Memory.readList_eq_none_iff]
  simp [State.InputWritten]

/-- A command over a written input goes on with its bytes. -/
theorem withInput_of_inputIs {s : State} {p : List Byte} (h : s.InputIs p) (k : List Byte → State) :
    withInput s k = .next (k p) := by
  rw [withInput, inputBytes_eq_some_iff.2 h]

/-- A command over an input with an unwritten byte is a model fault. -/
theorem withInput_of_not_written {s : State} (h : ¬ s.InputWritten) (k : List Byte → State) :
    withInput s k = .fault .uninitInput := by
  rw [withInput, inputBytes_eq_none_iff.2 h]

/-- A command over its input answers a next state only for the bytes it read. -/
theorem withInput_next {s t : State} {k : List Byte → State} (h : withInput s k = .next t) :
    ∃ p, s.InputIs p ∧ t = k p := by
  rw [withInput] at h
  split at h
  · rename_i p hp
    cases h
    exact ⟨p, inputBytes_eq_some_iff.1 hp, rfl⟩
  · cases h

/-- Everything a command can make of a state: acceptance, one completion per command, or the reset. -/
inductive ExecNext : Instr → State → State → Prop where
  | accepted {s : State} (op : Op) (idle : s.busy = false) : ExecNext op.toInstr s (accept op s)
  | tooLong {s : State} (busy : s.busy = true) (len : 255 < s.inLen.toNat) :
      ExecNext .encode s (raiseError invalidPayloadSize (setOutLen 0#9 s))
  | encoded {s : State} (p : List Byte) (busy : s.busy = true) (len : s.inLen.toNat ≤ 255) (input : s.InputIs p) :
      ExecNext .encode s (complete (storeFrame p s))
  | summed {s : State} (p : List Byte) (busy : s.busy = true) (input : s.InputIs p) :
      ExecNext .checksum s (complete (setCsum (checksum s.csLen p) s))
  | validated {s : State} (p : List Byte) (busy : s.busy = true) (input : s.InputIs p) :
      ExecNext .validate s (complete (setValid (validate p) s))
  | scanned {s : State} (p : List Byte) (busy : s.busy = true) (input : s.InputIs p) :
      ExecNext .scan s (complete (storeResult (scan p) s))
  | reset {s : State} : ExecNext .softReset s (resetBlock s)

/-- exec answers a next state only in one of the ways of `ExecNext`. -/
theorem exec_next {i : Instr} {s t : State} (h : exec i s = .next t) : ExecNext i s t := by
  cases i with
  | encode =>
    simp only [exec, execEncode] at h
    split at h
    · rename_i hb
      rw [completeEncode] at h
      split at h
      · cases h; exact .tooLong hb ‹_›
      · obtain ⟨p, hp, rfl⟩ := withInput_next h
        exact .encoded p hb (Nat.le_of_not_lt ‹_›) hp
    · cases h; exact .accepted .encode (Bool.eq_false_of_not_eq_true ‹_›)
  | checksum =>
    simp only [exec, execChecksum] at h
    split at h
    · obtain ⟨p, hp, rfl⟩ := withInput_next h; exact .summed p ‹_› hp
    · cases h; exact .accepted .checksum (Bool.eq_false_of_not_eq_true ‹_›)
  | validate =>
    simp only [exec, execValidate] at h
    split at h
    · obtain ⟨p, hp, rfl⟩ := withInput_next h; exact .validated p ‹_› hp
    · cases h; exact .accepted .validate (Bool.eq_false_of_not_eq_true ‹_›)
  | scan =>
    simp only [exec, execScan] at h
    split at h
    · obtain ⟨p, hp, rfl⟩ := withInput_next h; exact .scanned p ‹_› hp
    · cases h; exact .accepted .scan (Bool.eq_false_of_not_eq_true ‹_›)
  | softReset => cases h; exact .reset

/-- exec refuses nothing. -/
theorem exec_not_refused (i : Instr) (s : State) (r : Refusal) : exec i s ≠ .refused r := by
  cases i <;>
    simp only [exec, execEncode, execChecksum, execValidate, execScan, execSoftReset, completeEncode,
      completeChecksum, completeValidate, completeScan, withInput, ne_eq]
  all_goals repeat' split
  all_goals exact fun h => by cases h

/-- The completion of a command over a written input answers a next state. -/
theorem exec_of_input {s : State} (op : Op) (hb : s.busy = true)
    (h : s.InputWritten ∨ (op = .encode ∧ 255 < s.inLen.toNat)) : ∃ t, exec op.toInstr s = .next t := by
  have key : s.InputWritten → ∃ p, s.InputIs p := fun hw => by
    cases hp : inputBytes s with
    | none => exact absurd hw (inputBytes_eq_none_iff.1 hp)
    | some p => exact ⟨p, inputBytes_eq_some_iff.1 hp⟩
  rcases h with h | ⟨rfl, h⟩
  · obtain ⟨p, hp⟩ := key h
    cases op <;>
      simp only [Op.toInstr, exec, execEncode, execChecksum, execValidate, execScan, completeEncode,
        completeChecksum, completeValidate, completeScan, hb, if_true, withInput_of_inputIs hp]
    · split <;> exact ⟨_, rfl⟩
    all_goals exact ⟨_, rfl⟩
  · simp only [Op.toInstr, exec, execEncode, completeEncode, hb, if_true]
    rw [if_pos (show maxPayload < s.inLen.toNat from h)]
    exact ⟨_, rfl⟩

end Sys2Proof.Machine
end

