-- ==== Sys2Proof/Laws/HostPort.lean ====
section
/-! SUPPORT. Everything a host access and a step can do, said once. -/

namespace Sys2Proof.Machine

/-- The offsets of the register map, both ways. -/
theorem Reg.ofOffset_eq_some_iff {off : Nat} {r : Reg} : Reg.ofOffset off = some r ↔ off = r.offset := by
  constructor
  · intro h
    simp only [Reg.ofOffset] at h
    repeat' split at h
    all_goals first | cases h; assumption | cases h
  · rintro rfl; cases r <;> rfl

/-- Everything a host access can make of a state. -/
inductive HostNext : HostAccess → State → State → Prop where
  | invalid {s : State} (a : HostAccess) (zero : Reply)
      (h : (∃ off, a = .regRead off ∧ Reg.ofOffset off = none) ∨ (∃ i, a = .ibufRead i ∧ s.nIbuf ≤ i) ∨
        (∃ i, a = .obufRead i ∧ maxFrame ≤ i) ∨ (∃ i, a = .rbufRead i ∧ s.nIbuf ≤ i)) :
      HostNext a s (invalidRead zero s)
  | freeReg {s : State} (r : Reg) (busy : s.busy = true) (out : outputReg r = true) :
      HostNext (.regRead r.offset) s (answerFreeWord s)
  | readReg {s : State} (r : Reg) (h : ¬ (s.busy = true ∧ outputReg r = true)) :
      HostNext (.regRead r.offset) s (answer (.word (regValue s r)) s)
  | command {s t : State} (v : Word) (i : Instr) (dec : decode v = .ok i)
      (taken : s.busy = false ∨ i = .softReset) (run : ExecNext i (noAnswer s) t) : HostNext (.regWrite 0x00 v) s t
  | illegal {s : State} (v : Word) (e : Reject) (dec : decode v = .error e) (idle : s.busy = false) :
      HostNext (.regWrite 0x00 v) s (illegalCommand (noAnswer s))
  | dropped {s : State} (a : HostAccess) (h : (∃ off v, a = .regWrite off v) ∨ ∃ i b, a = .ibufWrite i b) :
      HostNext a s (accessError (noAnswer s))
  | status {s : State} (v : Word) (idle : s.busy = false) :
      HostNext (.regWrite 0x04 v) s (writeStatus v (noAnswer s))
  | inLen {s : State} (v : Word) (idle : s.busy = false) (h : v.toNat ≤ s.nIbuf) :
      HostNext (.regWrite 0x08 v) s (setInLen (v.setWidth 23) (noAnswer s))
  | csLen {s : State} (v : Word) (idle : s.busy = false) (h : v.toNat ≤ 255) :
      HostNext (.regWrite 0x0C v) s (setCsLen (v.setWidth 8) (noAnswer s))
  | ibuf {s : State} (i : Nat) (b : Byte) (idle : s.busy = false) (h : i < s.nIbuf) :
      HostNext (.ibufWrite i b) s (storeIbuf i b (noAnswer s))
  | readIbuf {s : State} (i : Nat) (b : Byte) (h : i < s.nIbuf) : HostNext (.ibufRead i) s (answer (.byte b) s)
  | freeObuf {s : State} (i : Nat) (busy : s.busy = true) (h : i < maxFrame) :
      HostNext (.obufRead i) s (answerFreeByte s)
  | readObuf {s : State} (i : Nat) (b : Byte) (idle : s.busy = false) (h : i < maxFrame) :
      HostNext (.obufRead i) s (answer (.byte b) s)
  | freeRbuf {s : State} (i : Nat) (busy : s.busy = true) (h : i < s.nIbuf) :
      HostNext (.rbufRead i) s (answerFreeWord s)
  | readRbuf {s : State} (i : Nat) (d : Word) (idle : s.busy = false) (h : i < s.nIbuf) :
      HostNext (.rbufRead i) s (answer (.word d) s)

theorem regRead_next {off : Nat} {s t : State} (h : regRead off s = .next t) : HostNext (.regRead off) s t := by
  rw [regRead] at h
  split at h
  · cases h; exact .invalid _ _ (.inl ⟨off, rfl, ‹_›⟩)
  · rename_i r hr
    obtain rfl := Reg.ofOffset_eq_some_iff.1 hr
    split at h
    · rename_i hb
      simp only [Bool.and_eq_true] at hb
      cases h; exact .freeReg r hb.1 hb.2
    · rename_i hb
      split at h
      · cases h
      · cases h; exact .readReg r (by simpa using hb)

theorem writeCmd_next {v : Word} {s t : State} (h : writeCmd v (noAnswer s) = .next t) :
    HostNext (.regWrite 0x00 v) s t := by
  rw [writeCmd] at h
  split at h
  · rename_i i hi
    split at h
    · cases h; exact .dropped _ (.inl ⟨_, _, rfl⟩)
    · rename_i hb
      refine .command v i hi ?_ (exec_next h)
      simp only [Bool.and_eq_true, bne_iff_ne, ne_eq, noAnswer_busy, not_and_or, not_not, Bool.not_eq_true] at hb
      exact hb
  · rename_i e he
    split at h
    · cases h; exact .dropped _ (.inl ⟨_, _, rfl⟩)
    · cases h; exact .illegal v e he (Bool.eq_false_of_not_eq_true ‹_›)

theorem writeIdleReg_next (r : Option Reg) (off : Nat) (hr : Reg.ofOffset off = r) (hc : r ≠ some .cmd) (v : Word)
    (s : State) (idle : s.busy = false) : HostNext (.regWrite off v) s (writeIdleReg r v (noAnswer s)) := by
  have drop : HostNext (.regWrite off v) s (accessError (noAnswer s)) := .dropped _ (.inl ⟨_, _, rfl⟩)
  match r with
  | none => exact drop
  | some r =>
    obtain rfl := Reg.ofOffset_eq_some_iff.1 hr
    cases r with
    | cmd => exact absurd rfl hc
    | status => exact .status v idle
    | inLen =>
      simp only [writeIdleReg, writeInLen]
      split
      · exact .inLen v idle ‹_›
      · exact drop
    | csLen =>
      simp only [writeIdleReg, writeCsLen]
      split
      · exact .csLen v idle ‹_›
      · exact drop
    | csum => exact drop
    | outLen => exact drop
    | resCount => exact drop
    | param => exact drop

/-- A host access answers a next state only in one of the ways of `HostNext`. -/
theorem hostAccess_next {a : HostAccess} {s t : State} (h : hostAccess a s = .next t) : HostNext a s t := by
  cases a with
  | regRead off => exact regRead_next h
  | regWrite off v =>
    simp only [hostAccess, regWrite] at h
    split at h
    · rename_i hr
      obtain rfl := Reg.ofOffset_eq_some_iff.1 hr
      exact writeCmd_next h
    · rename_i hr
      split at h
      · cases h; exact .dropped _ (.inl ⟨_, _, rfl⟩)
      · cases h; exact writeIdleReg_next _ off rfl hr v s (Bool.eq_false_of_not_eq_true ‹_›)
  | ibufWrite i b =>
    simp only [hostAccess, ibufWrite] at h
    split at h
    · cases h; exact .dropped _ (.inr ⟨_, _, rfl⟩)
    · split at h
      · cases h; exact .dropped _ (.inr ⟨_, _, rfl⟩)
      · cases h; exact .ibuf i b (Bool.eq_false_of_not_eq_true ‹¬ s.busy = true›) (Nat.lt_of_not_le ‹_›)
  | ibufRead i =>
    simp only [hostAccess, ibufRead] at h
    split at h
    · cases h; exact .invalid _ _ (.inr (.inl ⟨i, rfl, ‹_›⟩))
    · split at h
      · cases h
      · cases h; exact .readIbuf i _ (Nat.lt_of_not_le ‹_›)
  | obufRead i =>
    simp only [hostAccess, obufRead] at h
    split at h
    · cases h; exact .invalid _ _ (.inr (.inr (.inl ⟨i, rfl, ‹_›⟩)))
    · split at h
      · cases h; exact .freeObuf i ‹_› (Nat.lt_of_not_le ‹_›)
      · split at h
        · cases h
        · cases h; exact .readObuf i _ (Bool.eq_false_of_not_eq_true ‹¬ s.busy = true›) (Nat.lt_of_not_le ‹_›)
  | rbufRead i =>
    simp only [hostAccess, rbufRead] at h
    split at h
    · cases h; exact .invalid _ _ (.inr (.inr (.inr ⟨i, rfl, ‹_›⟩)))
    · split at h
      · cases h; exact .freeRbuf i ‹_› (Nat.lt_of_not_le ‹_›)
      · split at h
        · cases h
        · split at h
          · cases h
          · cases h; exact .readRbuf i _ (Bool.eq_false_of_not_eq_true ‹¬ s.busy = true›) (Nat.lt_of_not_le ‹_›)

/-- A read of STATUS: its word, or a model fault where ERRCODE is reserved. -/
theorem regRead_status (s : State) :
    regRead Reg.status.offset s =
      if reservedErrCode s.errCode = true then .fault .reservedErrCode else .next (answer (.word (statusWord s)) s) := by
  simp [regRead, Reg.ofOffset, Reg.offset, outputReg, regValue]

/-- Everything a step can make of a state: the engine's completion or idle turn, the host's access, WAIT's read of STATUS,
or the turn of a host whose script has ended. -/
inductive StepNext : State → State → Prop where
  | engine {s t : State} (who : nextAgent s = .engine) (busy : s.busy = true)
      (run : ExecNext s.pending.toInstr (takeTurn s) t) : StepNext s t
  | engineIdle {s : State} (who : nextAgent s = .engine) (idle : s.busy = false) : StepNext s (takeTurn s)
  | access {s t : State} (who : nextAgent s = .host) (a : HostAccess) (rest : List ScriptItem)
      (head : s.script = .access a :: rest) (run : HostNext a (setScript rest (takeTurn s)) t) : StepNext s t
  | wait {s : State} (who : nextAgent s = .host) (rest : List ScriptItem) (head : s.script = .wait :: rest) :
      StepNext s
        (answer (.word (statusWord s)) (setScript (if s.busy then .wait :: rest else rest) (takeTurn s)))
  | ended {s : State} (who : nextAgent s = .host) (none : s.script = []) : StepNext s (takeTurn s)

/-- A step answers a next state only in one of the ways of `StepNext`. -/
theorem step_next {s t : State} (h : step s = .next t) : StepNext s t := by
  rw [step] at h
  cases hw : nextAgent s with
  | engine =>
    rw [hw] at h
    simp only [turnOf, engineTurn, takeTurn_busy, takeTurn_pending] at h
    by_cases hb : s.busy = true
    · rw [if_pos hb] at h; exact .engine hw hb (exec_next h)
    · rw [if_neg hb] at h; cases h; exact .engineIdle hw (Bool.eq_false_of_not_eq_true hb)
  | host =>
    rw [hw] at h
    simp only [turnOf, hostTurn, takeTurn_script, takeTurn_busy] at h
    split at h
    · cases h; exact .ended hw ‹_›
    · rename_i a rest hs
      exact .access hw a rest hs (hostAccess_next h)
    · rename_i rest hs
      have key := StepNext.wait hw rest hs
      change hostAccess (.regRead Reg.status.offset) (setScript (if s.busy then .wait :: rest else rest) (takeTurn s)) =
        .next t at h
      generalize hq : setScript (if s.busy then .wait :: rest else rest) (takeTurn s) = q at h key
      rw [hostAccess, regRead_status] at h
      split at h
      · cases h
      · cases h
        rw [show statusWord q = statusWord s by rw [← hq]; rfl]
        exact key

end Sys2Proof.Machine
end

