-- ==== Sys2Proof/Laws/PerInstr.lean ====
section
/-! SUPPORT. The statements made for every command, one lemma per constructor. Family CmdWord: the command's word is a
well-formed CMD word, whose zero field is zero and whose OP field is the command's code (30_encoding.md R95). -/

def Sys2Proof.Laws.CmdWord.Statement (i : Sys2Proof.Instr) : Prop :=
  Sys2Proof.CmdWord.wellFormed (Sys2Proof.encode i) = true ∧
    Sys2Proof.zeroField (Sys2Proof.encode i) = 0#28 ∧
    Sys2Proof.opField (Sys2Proof.encode i) = Sys2Proof.opCode i

theorem Sys2Proof.Laws.CmdWord.encode : Sys2Proof.Laws.CmdWord.Statement .encode := ⟨by decide, by decide, by decide⟩

theorem Sys2Proof.Laws.CmdWord.checksum : Sys2Proof.Laws.CmdWord.Statement .checksum :=
  ⟨by decide, by decide, by decide⟩

theorem Sys2Proof.Laws.CmdWord.validate : Sys2Proof.Laws.CmdWord.Statement .validate :=
  ⟨by decide, by decide, by decide⟩

theorem Sys2Proof.Laws.CmdWord.scan : Sys2Proof.Laws.CmdWord.Statement .scan := ⟨by decide, by decide, by decide⟩

theorem Sys2Proof.Laws.CmdWord.softReset : Sys2Proof.Laws.CmdWord.Statement .softReset :=
  ⟨by decide, by decide, by decide⟩
end

