-- ==== Sys2Proof/Tests/Slice0.lean ====
section
/-! SUPPORT. Small tests against 95_test_vectors.md, and one witness per statement that has hypotheses. -/

namespace Sys2Proof.Tests

open Sys2Proof Sys2Proof.Machine

/-! ### Helpers -/

/-- The block after reset, with the least legal N_IBUF. -/
def idle : State := State.init 258#23 .encode

/-- The block with the input `p` loaded. -/
def loaded (p : List Byte) : State :=
  { idle with ibuf := Memory.writeList [] 0 p, inLen := BitVec.ofNat 23 p.length }

/-- The block with `op` accepted over the input `p`. -/
def flight (op : Op) (p : List Byte) : State := accept op (loaded p)

/-- The block with `op` accepted over `n` bytes, none of them written. -/
def unwritten (op : Op) (n : BitVec 23) : State := accept op { idle with inLen := n }

/-- The host's next item is `i`, and the host moves next. -/
def hostAt (i : ScriptItem) (s : State) : State := { s with script := [i], schedule := [.host] }

/-- The engine moves next. -/
def engineAt (s : State) : State := { s with schedule := [.engine] }

/-- What `f` says of the next state, none after a stop. -/
def after {α : Type} (o : Host.Outcome State Fault Refusal) (f : State → α) : Option α :=
  match o with
  | .next t => some (f t)
  | .fault _ => none
  | .refused _ => none

/-- Why an outcome is a model fault. -/
def faultOf (o : Host.Outcome State Fault Refusal) : Option Fault :=
  match o with
  | .next _ => none
  | .fault r => some r
  | .refused _ => none

/-- The source's example payload (V-SRC-1). -/
def payload : List Byte := [0xA0#8, 0x60#8, 0x00#8, 0x01#8]

/-- The source's example frame (V-SRC-1). -/
def frame : List Byte := [0x02#8, 0x04#8, 0xA0#8, 0x60#8, 0x00#8, 0x01#8, 0xFB#8]

/-- The STATUS word, as 95_test_vectors.md writes it. -/
def statusOf (o : Host.Outcome State Fault Refusal) : Option Word := after o statusWord

/-! ### Encodings -/

/-- 30_encoding.md section 2: CMD words written bit by bit, OP in [3:0]. -/
theorem test_decode_commands :
    decode 0b00000000000000000000000000000001#32 = .ok .encode ∧
    decode 0b00000000000000000000000000000010#32 = .ok .checksum ∧
    decode 0b00000000000000000000000000000011#32 = .ok .validate ∧
    decode 0b00000000000000000000000000000100#32 = .ok .scan ∧
    decode 0b00000000000000000000000000001111#32 = .ok .softReset := by decide

/-- 30_encoding.md section 4 and V-CTL-1 to V-CTL-3: illegal words, rejected by name. -/
theorem test_decode_illegal :
    decode 0x00000000#32 = .error .unassignedOp ∧ decode 0x00000005#32 = .error .unassignedOp ∧
    decode 0x0000000E#32 = .error .unassignedOp ∧ decode 0x00000011#32 = .error .reservedBits ∧
    decode 0x0000001F#32 = .error .reservedBits ∧ decode 0x80000001#32 = .error .reservedBits ∧
    decodeTableWord 32 (2 ^ 32 + 1) = none ∧ decodeTableWord 32 0xF = some .softReset := by decide

/-- 10_state.md section 3: the register map; reserved, misaligned and far offsets have no register. -/
theorem test_register_map :
    [0x00, 0x04, 0x08, 0x0C, 0x10, 0x14, 0x18, 0x1C].map Reg.ofOffset =
      [some .cmd, some .status, some .inLen, some .csLen, some .csum, some .outLen, some .resCount, some .param] ∧
    [0x02, 0x20, 0x100].map Reg.ofOffset = [none, none, none] := by decide

/-- 30_encoding.md section 3: KIND [31:30], OFFSET [29:8], BYTE [7:0], written bit by bit; KIND 0b11 is no entry. -/
theorem test_descriptor_fields :
    desc (.frame .bad 0x3FFFFF 0x81#8) = 0b10111111111111111111111110000001#32 ∧
    entryOfDesc 0b01000000000000000000010000000111#32 = some (.frame .ok 4 0x07#8) ∧
    entryOfDesc 0b00000000000000000000001011111110#32 = some (.raw 2 0xFE#8) ∧
    entryOfDesc 0b11000000000000000000000000000000#32 = none := by decide

/-- P1 of 95_test_vectors.md: what LOAD expands to. -/
theorem test_load_expansion :
    Pseudo.expand (.load [0xA0#8, 0x60#8]) =
      [.access (.ibufWrite 0 0xA0#8), .access (.ibufWrite 1 0x60#8), .access (.regWrite 0x08 2#32)] := by decide

/-! ### Well-formedness: an ill-formed term for each check -/

/-- A CMD word with a 1 in [31:4] (30_encoding.md section 2). -/
theorem test_reserved_bits_refused :
    CmdWord.zeroBits 0x00000011#32 = false ∧ CmdWord.wellFormed 0x00000011#32 = false ∧
      CmdWord.wellFormed 0x00000001#32 = true := by decide

/-- A CMD word with an unassigned OP (30_encoding.md section 4). -/
theorem test_unassigned_op_refused :
    CmdWord.assignedOp 0x00000005#32 = false ∧ CmdWord.wellFormed 0x00000005#32 = false := by decide

/-- A frame with a wrong start byte, and one whose payload has not the declared length (30_encoding.md section 1). -/
theorem test_incomplete_frames_refused :
    Frame.complete { startByte := 0x03#8, length := 0x01#8, payload := [0xFF#8], checksum := 0x00#8 } = false ∧
    Frame.complete { startByte := 0x02#8, length := 0x02#8, payload := [0xFF#8], checksum := 0x00#8 } = false ∧
    Frame.complete { startByte := 0x02#8, length := 0x01#8, payload := [0xFF#8], checksum := 0x00#8 } = true := by decide

/-- N_IBUF outside 258..2^22 (00_scope.md section 4). -/
theorem test_illegal_parameters_refused :
    nIbufLegal 257 = false ∧ nIbufLegal (2 ^ 22 + 1) = false ∧ nIbufLegal 258 = true ∧ nIbufLegal (2 ^ 22) = true := by
  decide

/-- Every command is a well-formed instruction: there is no ill-formed one (30_encoding.md section 2). -/
theorem test_commands_well_formed :
    [Instr.encode, .checksum, .validate, .scan, .softReset].map Instr.wellFormed =
      [true, true, true, true, true] := by decide

/-! ### Functions -/

/-- V-CS-1 to V-CS-4, V-CS-8, V-CS-10, V-CS-12. -/
theorem test_checksum :
    checksum 0x00#8 [] = 0x00#8 ∧ checksum 0x01#8 [0xFF#8] = 0x00#8 ∧ checksum 0x01#8 [0x00#8] = 0xFF#8 ∧
    checksum 0x04#8 payload = 0xFB#8 ∧ checksum 0x05#8 [0xA0#8] = 0x5B#8 ∧
    checksum 0x02#8 [0x04#8, 0xA0#8] = 0x5A#8 ∧ checksum 0x01#8 [0x80#8] = 0x7F#8 := by decide

/-- V-VAL-1 to V-VAL-8 and V-VAL-10. -/
theorem test_validate_function :
    validate frame = true ∧ validate [0x02#8, 0x00#8, 0x00#8] = false ∧
    validate [0x02#8, 0x00#8, 0x00#8, 0xAA#8] = true ∧ validate [] = false ∧
    validate [0x02#8, 0x04#8, 0xA0#8, 0x60#8] = false ∧ validate (0x03#8 :: frame.tail) = false ∧
    validate [0x02#8, 0x05#8, 0xA0#8, 0x60#8, 0x00#8, 0x01#8, 0xFB#8] = false ∧
    validate (frame.set 6 0xFC#8) = false ∧ validate (frame ++ [0x99#8]) = true := by decide

/-- V-SCN-3, V-SCN-5, V-SCN-10, V-SCN-13, V-SCN-17, V-SCN-18. -/
theorem test_scan_function :
    (scan [0x02#8, 0x00#8]).map desc = [0x00000002#32, 0x00000100#32] ∧
    (scan [0x02#8, 0x00#8, 0x01#8]).map desc = [0x80000000#32] ∧
    (scan [0xFE#8, 0x02#8, 0x01#8, 0x02#8, 0xFD#8]).map desc = [0x000000FE#32, 0x40000101#32] ∧
    (scan (frame ++ [0x02#8, 0x03#8, 0xA0#8, 0x55#8, 0x00#8, 0x08#8])).map desc = [0x40000004#32, 0x40000703#32] ∧
    (scan [0x02#8, 0x01#8, 0x00#8, 0x00#8, 0x02#8, 0x00#8, 0x00#8]).map desc = [0x80000001#32, 0x40000400#32] ∧
    (scan [0x02#8, 0x00#8, 0x00#8, 0x02#8]).map desc = [0x40000000#32, 0x00000302#32] := by decide

/-! ### One step of each command -/

/-- V-ENC-2: OBUF, OUT_LEN, CSUM, STATUS. -/
theorem test_encode :
    after (exec .encode (flight .encode payload)) (fun t => (Memory.readList (w := 8) t.obuf 0 7, t.outLen, t.csum)) =
      some (some frame, 7#9, 0xFB#8) ∧
    statusOf (exec .encode (flight .encode payload)) = some 0x00000002#32 := by decide

/-- V-ENC-7: IN_LEN = 256, no byte written: an error, not a model fault; CSUM and OBUF keep their contents. -/
theorem test_encode_too_long :
    statusOf (exec .encode (unwritten .encode 256#23)) = some 0x00000016#32 ∧
    after (exec .encode { unwritten .encode 256#23 with csum := 0x77#8, outLen := 7#9, obuf := [(3, 0x11#8)] })
      (fun t => (t.csum, t.outLen, t.obuf)) = some (0x77#8, 0#9, [(3, 0x11#8)]) := by decide

/-- V-CHK-3: CS_LEN differs from IN_LEN. -/
theorem test_checksum_command :
    after (exec .checksum { flight .checksum [0xA0#8] with csLen := 0x05#8 }) (fun t => (t.csum, statusWord t)) =
      some (0x5B#8, 0x00000002#32) := by decide

/-- V-CTL-20's case for CHECKSUM: the second input byte is not written. -/
theorem test_checksum_uninit :
    faultOf (exec .checksum { flight .checksum [0xA0#8] with inLen := 2#23 }) = some .uninitInput := by decide

/-- V-VAL-1 and V-VAL-11. -/
theorem test_validate_command :
    statusOf (exec .validate (flight .validate frame)) = some 0x0000000A#32 ∧
    statusOf (exec .validate (flight .validate (frame.set 2 0xA1#8))) = some 0x00000002#32 := by decide

/-- V-VAL-2: the 4-byte floor. -/
theorem test_validate_floor :
    statusOf (exec .validate (flight .validate [0x02#8, 0x00#8, 0x00#8])) = some 0x00000002#32 := by decide

/-- V-SCN-12: a noise 02 swallows a real frame. -/
theorem test_scan :
    after (exec .scan (flight .scan (0x02#8 :: frame))) (fun t => (t.rbuf.map Prod.snd, t.resCount, statusWord t)) =
      some ([0x80000002#32, 0x00000500#32, 0x00000601#32, 0x000007FB#32], 4#23, 0x00000002#32) := by decide

/-- V-SCN-1 over old results: RES_COUNT 0, the old entry stays. -/
theorem test_scan_empty :
    after (exec .scan { flight .scan [] with rbuf := [(0, 0x40000000#32)], resCount := 1#23 })
      (fun t => (t.rbuf, t.resCount)) = some ([(0, 0x40000000#32)], 0#23) := by decide

/-- V-CTL-18: SOFT_RESET in flight gives the reset state, whose engine does nothing. -/
theorem test_soft_reset :
    after (hostAccess (.regWrite 0x00 0xF#32) { flight .scan frame with aerr := true })
      (fun t => (statusWord t, t.inLen, t.ibuf, t.param)) = some (0x00000000#32, 0#23, [], 258#23) := by decide

/-! ### Host accesses, from V-CTL-1 to V-CTL-20 -/

/-- V-CTL-1, V-CTL-2, V-CTL-3. -/
theorem test_illegal_words :
    [0x0#32, 0x11#32, 0x1F#32].map (fun w => statusOf (hostAccess (.regWrite 0x00 w) idle)) =
      [some 0x00000026#32, some 0x00000026#32, some 0x00000026#32] := by decide

/-- V-CTL-4, V-CTL-5, V-CTL-6, V-CTL-13, V-CTL-14. -/
theorem test_length_writes :
    after (hostAccess (.regWrite 0x08 259#32) idle) (fun t => (t.inLen, statusWord t)) = some (0#23, 0x00000100#32) ∧
    after (hostAccess (.regWrite 0x08 258#32) idle) (fun t => (t.inLen, statusWord t)) = some (258#23, 0x00000000#32) ∧
    after (hostAccess (.regWrite 0x10 5#32) idle) (fun t => (t.csum, t.aerr)) = some (0x00#8, true) ∧
    after (hostAccess (.regWrite 0x0C 0x100#32) idle) (fun t => (t.csLen, t.aerr)) = some (0x00#8, true) ∧
    after (hostAccess (.ibufWrite 258 0x00#8) idle) (fun t => (t.ibuf, t.aerr)) = some ([], true) := by decide

/-- V-CTL-7, V-CTL-8, V-CTL-11, V-CTL-12, V-CTL-15, V-CTL-16. -/
theorem test_reads :
    after (hostAccess (.regRead 0x20) idle) (fun t => (t.reply, t.aerr)) = some (some (.word 0#32), true) ∧
    after (hostAccess (.regRead 0x02) idle) (fun t => (t.reply, t.aerr)) = some (some (.word 0#32), true) ∧
    after (hostAccess (.regRead 0x00) idle) (fun t => (t.reply, t.aerr)) = some (some (.word 0#32), false) ∧
    after (hostAccess (.regRead 0x1C) idle) (fun t => (t.reply, t.aerr)) = some (some (.word 258#32), false) ∧
    after (hostAccess (.obufRead 258) idle) (fun t => (t.reply, t.aerr)) = some (some (.byte 0#8), true) ∧
    faultOf (hostAccess (.ibufRead 0) idle) = some .uninitRead := by decide

/-- V-CTL-9, V-CTL-10: STATUS is written by bit 8 alone. -/
theorem test_status_write :
    after (hostAccess (.regWrite 0x04 0x100#32) { idle with aerr := true }) (·.aerr) = some false ∧
    after (hostAccess (.regWrite 0x04 0xFF#32) { idle with aerr := true, done := true }) statusWord =
      some 0x00000102#32 := by decide

/-- V-CTL-17, V-CTL-19. -/
theorem test_busy_accesses :
    after (hostAccess (.ibufWrite 0 0x55#8) (flight .scan frame)) (fun t => (t.ibuf == (flight .scan frame).ibuf, t.aerr)) =
      some (true, true) ∧
    after (hostAccess (.regRead 0x04) { flight .scan frame with aerr := true }) (·.reply) =
      some (some (.word 0x00000101#32)) := by decide

/-! ### Steps -/

/-- P4 of 95_test_vectors.md, schedule (b): the IN_LEN write comes while BUSY = 1 and is dropped. -/
theorem test_p4_write_first :
    after (step (hostAt (.access (.regWrite 0x08 1#32)) (flight .scan [0x02#8, 0x00#8, 0x00#8])))
      (fun t => (t.inLen, statusWord t)) = some (3#23, 0x00000101#32) := by decide

/-- P4 of 95_test_vectors.md, schedule (a): the engine step comes first. -/
theorem test_p4_engine_first :
    after (step (engineAt (flight .scan [0x02#8, 0x00#8, 0x00#8])))
      (fun t => (t.resCount, Memory.read t.rbuf 0, statusWord t)) =
      some (1#23, some 0x40000000#32, 0x00000002#32) := by decide

/-- The placed words of the command map run as the first instruction after reset: the first four are accepted. -/
theorem test_placed_commands :
    [1, 2, 3, 4].map (fun w => after (step (State.reset.withFetchWord 32 w)) (fun t => (statusWord t, t.pending))) =
      [some (0x00000001#32, .encode), some (0x00000001#32, .checksum), some (0x00000001#32, .validate),
        some (0x00000001#32, .scan)] ∧
    after (step (State.reset.withFetchWord 32 0xF)) statusWord = some 0x00000000#32 := by decide

/-- WAIT (30_encoding.md section 5) reads STATUS, and stays while BUSY reads 1. -/
theorem test_wait :
    after (step (hostAt .wait (flight .scan frame))) (fun t => (t.script, t.reply)) =
      some ([.wait], some (.word 0x00000001#32)) ∧
    after (step (hostAt .wait idle)) (fun t => (t.script, t.reply)) = some ([], some (.word 0x00000000#32)) := by decide

/-! ### Witnesses: a state and operands that meet the hypotheses of each statement -/

theorem witness_CommandMapIsExact : decode 0x00000004#32 = .ok .scan := by decide

theorem witness_IllegalWordsAreRejected :
    16 ≤ (16#32).toNat ∧ 16 ≤ (0x100#32).toNat ∧ (0#32).toNat = 0 ∧
    (5 ≤ (5#32).toNat ∧ (14#32).toNat ≤ 14) ∧
    (∀ w ∈ [0x0#32, 0x5#32, 0xE#32, 0x10#32], w ≠ 0x1#32 ∧ w ≠ 0x2#32 ∧ w ≠ 0x3#32 ∧ w ≠ 0x4#32 ∧ w ≠ 0xF#32) ∧
    idle.busy = false ∧ (flight .scan frame).busy = true :=
  ⟨by decide, by decide, by decide, by decide, by simp, rfl, rfl⟩

theorem witness_DescriptorFormula : (0 : Nat) < 2 ^ 22 ∧ 2 ^ 22 - 1 < 2 ^ 22 := by omega

theorem witness_DescriptorRoundTrip :
    entryOffset (.frame .bad (2 ^ 22 - 1) 0xFF#8) < 2 ^ 22 ∧ entryOffset (.raw 0 0x00#8) < 2 ^ 22 := ⟨by rw [entryOffset]; omega, by decide⟩

/-- A block that holds a reserved descriptor inside its result range. -/
def reserved : State := { idle with rbuf := [(0, 0xC0000000#32), (1, 0xC0000000#32)], resCount := 1#23 }

theorem witness_ReservedKindIsNeverWritten :
    (∃ t, exec .scan reserved = .next t ∧ Memory.read t.rbuf 1 = some 0xC0000000#32) ∧
    descKind 0xC0000000#32 = 0b11#2 ∧ reserved.busy = false ∧ 0 < reserved.nIbuf ∧
    Memory.read reserved.rbuf 0 = some 0xC0000000#32 ∧ 0 < reserved.resCount.toNat :=
  ⟨⟨_, rfl, by decide⟩, by decide⟩

theorem witness_PseudoExpansions :
    payload[0]? = some 0xA0#8 ∧ payload[3]? = some 0x01#8 ∧
    (hostAt .wait (flight .scan frame)).script = [.wait] ∧ (hostAt .wait idle).script = [.wait] := by decide

theorem witness_ChecksumDetectsBitFlips : 7 < 8 ∧ payload[3]? = some 0x01#8 := by decide

theorem witness_ChecksumIgnoresOrder :
    (([0x01#8, 0xFF#8]).map BitVec.toNat).sum % 256 = (([0x00#8]).map BitVec.toNat).sum % 256 ∧
    [0x01#8, 0x02#8].Perm [0x02#8, 0x01#8] := ⟨by decide, .swap _ _ _⟩

theorem witness_EncodeFunction :
    (List.replicate 255 0xFF#8).length ≤ 255 ∧ ([] : List Byte).length ≤ 255 ∧
    255 < (List.replicate 256 0xFF#8).length := by
  rw [List.length_replicate, List.length_replicate]; decide

theorem witness_EncodeCompletes :
    (flight .encode payload).busy = true ∧ (flight .encode payload).InputIs payload ∧ payload.length ≤ 255 ∧
    (flight .encode []).busy = true ∧ (flight .encode []).InputIs [] ∧
    (unwritten .encode 255#23).busy = true ∧ (unwritten .encode 255#23).inLen.toNat ≤ 255 ∧
    ¬ (unwritten .encode 1#23).InputWritten ∧
    (unwritten .encode 256#23).busy = true ∧ 255 < (unwritten .encode 256#23).inLen.toNat := by decide

theorem witness_EncodeCompletes_full :
    (flight .encode (List.replicate 255 0xFF#8)).InputIs (List.replicate 255 0xFF#8) := by
  generalize hp : List.replicate 255 0xFF#8 = p
  have hl : p.length = 255 := by rw [← hp, List.length_replicate]
  refine ⟨?_, fun i hi => (Memory.read_writeList [] 0 i p).trans (if_pos ⟨Nat.zero_le _, ?_⟩)⟩
  · rw [show (flight .encode p).inLen = BitVec.ofNat 23 p.length from rfl, hl]; decide
  · rwa [Nat.zero_add]

theorem witness_EncodeTooLong :
    (unwritten .encode 256#23).busy = true ∧ 255 < (unwritten .encode 256#23).inLen.toNat := by decide

theorem witness_EncodeChangesOnlyItsOutputs :
    (∃ t, exec .encode (loaded payload) = .next t) ∧ (loaded payload).busy = false ∧
    (∃ t, exec .encode (flight .encode payload) = .next t) ∧ (flight .encode payload).busy = true ∧
    (∃ t, exec .encode (unwritten .encode 256#23) = .next t) :=
  ⟨⟨_, rfl⟩, rfl, ⟨_, rfl⟩, rfl, ⟨_, rfl⟩⟩

theorem witness_ChecksumCompletes :
    (flight .checksum payload).busy = true ∧ (flight .checksum payload).InputIs payload ∧
    (flight .checksum []).InputIs [] ∧
    (unwritten .checksum 1#23).busy = true ∧ ¬ (unwritten .checksum 1#23).InputWritten := by decide

theorem witness_ValidateChecks :
    4 ≤ [0x02#8, 0x00#8, 0x00#8, 0xAA#8].length ∧ [0x02#8, 0x00#8, 0x00#8, 0xAA#8][1]? = some 0x00#8 ∧
    3 + (0x00#8).toNat ≤ [0x02#8, 0x00#8, 0x00#8, 0xAA#8].length ∧
    [0x02#8, 0x00#8, 0x00#8, 0xAA#8].take 3 = [0x02#8, 0x00#8, 0x00#8, 0xBB#8].take 3 := by decide

theorem witness_ValidateCompletes :
    [0x02#8, 0x00#8, 0x00#8].length ≤ 3 ∧ 0x03#8 ≠ 0x02#8 ∧ validate frame = true ∧
    (flight .validate frame).busy = true ∧ (flight .validate frame).InputIs frame ∧
    (flight .validate []).InputIs [] ∧
    (unwritten .validate 1#23).busy = true ∧ ¬ (unwritten .validate 1#23).InputWritten := by decide

theorem witness_RegisterCommandsChangeNoBuffer :
    (∃ t, exec .checksum (loaded payload) = .next t) ∧ (∃ t, exec .checksum (flight .checksum payload) = .next t) ∧
    (∃ t, exec .validate (loaded frame) = .next t) ∧ (∃ t, exec .validate (flight .validate frame) = .next t) :=
  ⟨⟨_, rfl⟩, ⟨_, rfl⟩, ⟨_, rfl⟩, ⟨_, rfl⟩⟩

theorem witness_ValidateAgreesWithScanTag :
    frame[0]? = some 0x02#8 ∧ frame[1]? = some 0x04#8 ∧ frame.length = (0x04#8).toNat + 3 ∧ 4 ≤ frame.length ∧
    [0x02#8, 0x00#8, 0x00#8][1]? = some 0x00#8 ∧ [0x02#8, 0x00#8, 0x00#8].length = (0x00#8).toNat + 3 := by decide

theorem witness_ValidateOfEncodedFrame :
    1 ≤ payload.length ∧ encodeFrame payload = some frame ∧ validate frame = true ∧ frame[1]? = some 0x04#8 ∧
    2 ≤ 5 ∧ 5 < 2 + (0x04#8).toNat ∧ frame[5]? = some 0x01#8 ∧ frame[2]? = some 0xA0#8 ∧ 7 < 8 := by decide

theorem witness_ScanIsOnePass :
    frame.length ≤ 7 ∧ frame[0]? = some 0x02#8 ∧ 0 + 2 < frame.length ∧ frame[0 + 1]? = some 0x04#8 ∧
    frame[0 + 2 + (0x04#8).toNat]? = some 0xFB#8 ∧
    frame[1]? = some 0x04#8 ∧ ¬ (0x04#8 = 0x02#8) ∧
    [0x02#8, 0x00#8, 0x00#8][0 + 2 + (0x00#8).toNat]? = some 0x00#8 := by decide

theorem witness_RawEmission :
    ([0xFE#8][0]? = some 0xFE#8 ∧ 0xFE#8 ≠ 0x02#8) ∧
    ([0x02#8, 0x00#8][0]? = some 0x02#8 ∧ [0x02#8, 0x00#8].length ≤ 0 + 2) ∧
    (frame.dropLast[0]? = some 0x02#8 ∧ 0 + 2 < frame.dropLast.length ∧ frame.dropLast[0 + 1]? = some 0x04#8 ∧
      frame.dropLast.length ≤ 0 + 2 + (0x04#8).toNat) := by decide

theorem witness_FrameEmission :
    frame[0]? = some 0x02#8 ∧ frame[0 + 1]? = some 0x04#8 ∧ frame[0 + 2 + (0x04#8).toNat]? = some 0xFB#8 := by decide

theorem witness_NoiseScansToRawBytes :
    (∀ b ∈ [0x11#8, 0x22#8, 0x33#8], b ≠ 0x02#8) ∧ [0x11#8, 0x22#8, 0x33#8][2]? = some 0x33#8 ∧
    (∀ (c : Nat) (len : Byte), [0x02#8, 0x01#8][c]? = some 0x02#8 → [0x02#8, 0x01#8][c + 1]? = some len →
      [0x02#8, 0x01#8].length ≤ c + 2 + len.toNat) ∧ [0x02#8, 0x01#8][0]? = some 0x02#8 :=
  ⟨by decide, by decide, fun _ _ _ _ => Nat.le_trans (Nat.le_add_left 2 _) (Nat.le_add_right _ _), by decide⟩

theorem witness_ScanTilesTheBuffer :
    (scan (0x02#8 :: frame))[0]? = some (.frame .bad 0 0x02#8) ∧
    (scan (0x02#8 :: frame))[1]? = some (.raw 5 0x00#8) := by decide

theorem witness_ScanOfEncodedFrame :
    encodeFrame payload = some frame ∧
    (∀ i < frame.length, Memory.read (w := 8) (Memory.writeList [] 0 frame) i = frame[i]?) ∧
    encodeFrame [] = some [0x02#8, 0x00#8, 0x00#8] := by decide

theorem witness_ScanCompletes :
    (flight .scan frame).busy = true ∧ (flight .scan frame).InputIs frame ∧ (flight .scan []).InputIs [] ∧
    (unwritten .scan 1#23).busy = true ∧ ¬ (unwritten .scan 1#23).InputWritten := by decide

theorem witness_ScanChangesOnlyItsOutputs :
    (∃ t, exec .scan (loaded frame) = .next t) ∧ (∃ t, exec .scan (flight .scan frame) = .next t) ∧
    inputBytes (flight .scan frame) = some frame := ⟨⟨_, rfl⟩, ⟨_, rfl⟩, by decide⟩

theorem witness_DecodeViewAfterScan :
    (flight .scan (0x00#8 :: frame)).busy = true ∧ (flight .scan (0x00#8 :: frame)).inLen.toNat ≤ 2 ^ 22 ∧
    ∃ t, exec .scan (flight .scan (0x00#8 :: frame)) = .next t ∧ 1 < t.resCount.toNat :=
  ⟨by decide, by decide, _, rfl, by decide⟩

theorem witness_CommandAcceptance :
    idle.busy = false ∧
    (0x4#32, Op.scan) ∈ [(0x1#32, Op.encode), (0x2#32, Op.checksum), (0x3#32, Op.validate), (0x4#32, Op.scan)] := by
  decide

theorem witness_WritesWhileBusyAreDropped :
    (flight .scan frame).busy = true ∧ ¬ (0x00 = 0x00 ∧ 0x00000001#32 = 0x0000000F#32) ∧
    ¬ (0x100 = 0x00 ∧ 0x0000000F#32 = 0x0000000F#32) := by decide

theorem witness_InvalidOffsets :
    0x02 % 4 ≠ 0 ∧ 0x100 ≤ 0x100 ∧ 0x20 ∉ [0x00, 0x04, 0x08, 0x0C, 0x10, 0x14, 0x18, 0x1C] ∧
    0x1D ∉ [0x00, 0x04, 0x08, 0x0C, 0x10, 0x14, 0x18, 0x1C] := by decide

theorem witness_RegReadValues :
    idle.errCode.toNat ≤ 2 ∧ ({ idle with errCode := 2#4 }).errCode.toNat ≤ 2 ∧ idle.busy = false ∧
    (flight .scan frame).busy = true ∧ 0x18 ∈ [0x10, 0x14, 0x18] ∧
    0x20 ∉ [0x00, 0x04, 0x08, 0x0C, 0x10, 0x14, 0x18, 0x1C] := by decide

theorem witness_ReservedErrCodeStops :
    (∃ t, step idle = .next t) ∧ idle.errCode.toNat ≤ 2 ∧ 2 < ({ idle with errCode := 3#4 }).errCode.toNat :=
  ⟨⟨_, rfl⟩, by decide⟩

theorem witness_RegWriteByOffset :
    (flight .scan frame).busy = true ∧ ¬ (0x04 = 0x00 ∧ 0x100#32 = 0x0000000F#32) ∧ idle.busy = false ∧
    decode 0x4#32 = .ok .scan ∧ decode 0x5#32 = .error .unassignedOp ∧
    (0x100#32).getLsbD 8 = true ∧ (0xFF#32).getLsbD 8 = false ∧
    (258#32).toNat ≤ idle.nIbuf ∧ idle.nIbuf < (259#32).toNat ∧ (255#32).toNat ≤ 255 ∧ 255 < (256#32).toNat ∧
    0x1C ∈ [0x10, 0x14, 0x18, 0x1C] ∧ 0x20 ∉ [0x00, 0x04, 0x08, 0x0C, 0x10, 0x14, 0x18, 0x1C] := by decide

theorem witness_IbufWriteStores :
    (flight .scan frame).busy = true ∧ idle.nIbuf ≤ 258 ∧ idle.busy = false ∧ 257 < idle.nIbuf := by decide

theorem witness_IbufReadReturns :
    idle.nIbuf ≤ 258 ∧ 257 < idle.nIbuf ∧ Memory.written (w := 8) idle.ibuf 257 = false ∧
    0 < (loaded frame).nIbuf ∧ Memory.read (w := 8) (loaded frame).ibuf 0 = some 0x02#8 := by decide

/-- A block with the last OBUF byte and one result written. -/
def results : State := { idle with obuf := [(257, 0x01#8)], rbuf := [(257, 0x40000004#32)] }

theorem witness_ObufReadReturns :
    258 ≤ 258 ∧ 257 < 258 ∧ (flight .scan frame).busy = true ∧ results.busy = false ∧
    Memory.written (w := 8) results.obuf 256 = false ∧ Memory.read (w := 8) results.obuf 257 = some 0x01#8 := by decide

theorem witness_RbufReadReturns :
    results.nIbuf ≤ 258 ∧ 257 < results.nIbuf ∧ (flight .scan frame).busy = true ∧ results.busy = false ∧
    Memory.written results.rbuf 256 = false ∧ Memory.read results.rbuf 257 = some 0x40000004#32 ∧
    ¬ (descKind 0x40000004#32 = 0b11#2 ∧ 257 < results.resCount.toNat) := by decide

theorem witness_ReadsHaveNoSideEffect :
    (∃ t, hostAccess (.regRead 0x04) idle = .next t) ∧ (∃ t, hostAccess (.ibufRead 0) (loaded frame) = .next t) ∧
    (∃ t, hostAccess (.obufRead 257) results = .next t) ∧ (∃ t, hostAccess (.rbufRead 257) results = .next t) ∧
    idle.busy = false :=
  ⟨⟨_, rfl⟩, ⟨_, rfl⟩, ⟨_, rfl⟩, ⟨_, rfl⟩, rfl⟩

theorem witness_StepRunsWrittenCommand :
    nextAgent (hostAt (.access (.regWrite 0x00 0x4#32)) idle) = .host ∧
    (hostAt (.access (.regWrite 0x00 0x4#32)) idle).script = [.access (.regWrite 0x00 0x4#32)] ∧
    decode 0x4#32 = .ok .scan ∧ (hostAt (.access (.regWrite 0x00 0x4#32)) idle).busy = false ∧
    nextAgent (hostAt (.access (.regWrite 0x00 0xF#32)) (flight .scan frame)) = .host ∧
    decode 0xF#32 = .ok .softReset ∧ 0xF < 2 ^ 32 ∧ decodeTableWord 32 0xF = some .softReset := by decide

theorem witness_EngineStepCompletesPending :
    (engineAt (flight .scan frame)).busy = true ∧ nextAgent (engineAt (flight .scan frame)) = .engine ∧
    (∃ t, exec (flight .scan frame).pending.toInstr (flight .scan frame) = .next t) ∧
    (engineAt (flight .scan frame)).pending = (flight .scan frame).pending ∧
    (engineAt (flight .scan frame)).inLen = (flight .scan frame).inLen ∧
    (engineAt (flight .scan frame)).csLen = (flight .scan frame).csLen ∧
    (engineAt (flight .scan frame)).ibuf = (flight .scan frame).ibuf :=
  ⟨rfl, rfl, ⟨_, rfl⟩, rfl, rfl, rfl, rfl⟩

theorem witness_StepTakesOneTurn :
    nextAgent (hostAt (.access (.ibufWrite 0 0x55#8)) idle) = .host ∧
    (hostAt (.access (.ibufWrite 0 0x55#8)) idle).script = [.access (.ibufWrite 0 0x55#8)] ∧
    nextAgent (engineAt idle) = .engine ∧ (engineAt idle).busy = false ∧
    nextAgent idle = .host ∧ idle.script = [] := by decide

/-- The invariant holds in a state with a command in flight. -/
theorem flight_inv : (flight .scan frame).Inv := ⟨by decide, by decide, by decide, by decide, by decide⟩

/-- The invariant holds after reset. -/
theorem idle_inv : idle.Inv := ⟨by decide, by decide, by decide, by decide, by decide⟩

theorem witness_WaitEnds :
    (hostAt .wait (flight .scan frame)).Inv ∧ (hostAt .wait (flight .scan frame)).FlightReady ∧
    (hostAt .wait (flight .scan frame)).busy = true ∧ (hostAt .wait (flight .scan frame)).script = .wait :: [] ∧
    (hostAt .wait idle).Inv ∧ (hostAt .wait idle).FlightReady ∧ (hostAt .wait idle).script = .wait :: [] ∧
    (hostAt .wait { idle with done := true }).Inv ∧ (hostAt .wait { idle with done := true }).FlightReady ∧
    (hostAt .wait { idle with done := true }).done = true :=
  ⟨⟨by decide, by decide, by decide, by decide, by decide⟩, by decide, by decide, by decide,
    ⟨by decide, by decide, by decide, by decide, by decide⟩, by decide, by decide,
    ⟨by decide, by decide, by decide, by decide, by decide⟩, by decide, by decide⟩

/-- A step of each agent answers a next state, as the statements about every step assume. -/
theorem witness_ParamIsConstant :
    (∃ t, step (engineAt (flight .scan frame)) = .next t) ∧
    (∃ t, step (hostAt (.access (.regWrite 0x00 0xF#32)) idle) = .next t) := ⟨⟨_, rfl⟩, ⟨_, rfl⟩⟩

theorem witness_InputsHaveOneWriter :
    (∃ t, step (engineAt (flight .scan frame)) = .next t) ∧
    (∃ t, step (hostAt (.access (.ibufWrite 0 0x55#8)) idle) = .next t) ∧
    (∃ t, step (hostAt (.access (.regWrite 0x08 1#32)) idle) = .next t) ∧
    (∃ t, step (hostAt (.access (.regWrite 0x0C 1#32)) idle) = .next t) ∧
    (∃ t, step (hostAt (.access (.regWrite 0x00 0xF#32)) (loaded frame)) = .next t) :=
  ⟨⟨_, rfl⟩, ⟨_, rfl⟩, ⟨_, rfl⟩, ⟨_, rfl⟩, ⟨_, rfl⟩⟩

theorem witness_OutputsHaveOneWriter :
    (∃ t, step (engineAt (flight .encode payload)) = .next t) ∧ (∃ t, step (engineAt (flight .scan frame)) = .next t) ∧
    (∃ t, step (engineAt (flight .checksum payload)) = .next t) ∧
    (∃ t, step (hostAt (.access (.regWrite 0x00 0xF#32)) results) = .next t) :=
  ⟨⟨_, rfl⟩, ⟨_, rfl⟩, ⟨_, rfl⟩, ⟨_, rfl⟩⟩

theorem witness_AccessErrors :
    AccessInvalid (flight .scan frame) (.regWrite 0x00 0x1#32) ∧ AccessInvalid idle (.regWrite 0x08 259#32) ∧
    AccessInvalid idle (.regWrite 0x0C 256#32) ∧ AccessInvalid idle (.regWrite 0x1C 0#32) ∧
    AccessInvalid idle (.regRead 0x20) ∧ AccessInvalid idle (.ibufWrite 258 0x00#8) ∧
    AccessInvalid idle (.obufRead 258) ∧ ¬ AccessInvalid idle (.regWrite 0x08 258#32) ∧
    after (hostAccess (.regWrite 0x08 258#32) idle) (·.aerr) = some false ∧ idle.aerr = false ∧
    after (step (hostAt (.access (.regWrite 0x04 0x100#32)) { idle with aerr := true })) (·.aerr) = some false ∧
    after (step (hostAt (.access (.regRead 0x20)) idle)) (·.aerr) = some true :=
  ⟨.inl (by decide), .inr (.inr (.inr (.inl (by decide)))), .inr (.inr (.inr (.inr (by decide)))),
    .inr (.inr (.inl (by decide))), rfl, .inr (by decide), Nat.le_refl 258, by simp [AccessInvalid]; decide, by decide⟩

theorem witness_ErrorEntry :
    after (step (engineAt (unwritten .encode 256#23))) (·.err) = some true ∧ (unwritten .encode 256#23).err = false ∧
    after (step (hostAt (.access (.regWrite 0x00 0x0#32)) idle)) (·.err) = some true ∧ idle.err = false := by decide

theorem witness_BusyFollowsTheCommand :
    after (step (hostAt (.access (.regWrite 0x00 0x4#32)) idle)) (·.busy) = some true ∧ idle.busy = false ∧
    after (step (engineAt (flight .scan frame))) (·.busy) = some false ∧ (flight .scan frame).busy = true ∧
    after (step (hostAt (.access (.regWrite 0x00 0xF#32)) (flight .scan frame))) (·.busy) = some false := by decide

theorem witness_StepKeepsInvariant :
    (flight .scan frame).Inv ∧ (∃ t, step (flight .scan frame) = .next t) ∧
    idle.Inv ∧ (∃ t, step idle = .next t) := ⟨flight_inv, ⟨_, rfl⟩, idle_inv, ⟨_, rfl⟩⟩

theorem witness_CarefulHostNeverFaults :
    (flight .scan frame).Inv ∧ (flight .scan frame).FlightReady ∧ nextAgent (flight .scan frame) = .engine ∧
    (hostAt (.access (.regWrite 0x00 0x4#32)) idle).Inv ∧ (hostAt (.access (.regWrite 0x00 0x4#32)) idle).FlightReady ∧
    (hostAt (.access (.regWrite 0x00 0x4#32)) idle).HostCareful ∧
    (hostAt (.access (.ibufRead 6)) (loaded frame)).HostCareful ∧
    ¬ (hostAt (.access (.ibufRead 7)) (loaded frame)).HostCareful := by
  refine ⟨flight_inv, by decide, by decide, ⟨by decide, by decide, by decide, by decide, by decide⟩, by decide, ?_,
    fun a rest h => by cases h; exact fun _ => by decide,
    fun h => absurd (h _ _ rfl (by decide)) (by decide)⟩
  intro a rest h
  cases h
  exact fun _ _ _ _ _ i hi => absurd hi (Nat.not_lt_zero i)

end Sys2Proof.Tests
end

section
/-! Accesses at an offset without a register (10_state.md R31). -/

namespace Sys2Proof.Machine

theorem Reg.offset_mem_registerMap (r : Reg) : r.offset ∈ [0x00, 0x04, 0x08, 0x0C, 0x10, 0x14, 0x18, 0x1C] := by
  cases r <;> decide

theorem Reg.ofOffset_ne_none_of_mem :
    ∀ off ∈ [0x00, 0x04, 0x08, 0x0C, 0x10, 0x14, 0x18, 0x1C], Reg.ofOffset off ≠ none := by
  decide

/-- The offsets without a register (10_state.md R22, R31). -/
theorem Reg.ofOffset_eq_none_iff {off : Nat} :
    Reg.ofOffset off = none ↔ off ∉ [0x00, 0x04, 0x08, 0x0C, 0x10, 0x14, 0x18, 0x1C] := by
  constructor
  · exact fun hnone hmem => Reg.ofOffset_ne_none_of_mem off hmem hnone
  · intro hmem
    cases hr : Reg.ofOffset off with
    | none => rfl
    | some r => exact absurd (Reg.ofOffset_eq_some_iff.1 hr ▸ Reg.offset_mem_registerMap r) hmem

/-- The eight offsets are multiples of 4 below 0x100. -/
theorem not_mem_registerMap_of_misaligned_or_beyond {off : Nat} (h : off % 4 ≠ 0 ∨ 0x100 ≤ off) :
    off ∉ [0x00, 0x04, 0x08, 0x0C, 0x10, 0x14, 0x18, 0x1C] := by
  simp only [List.mem_cons, List.not_mem_nil, or_false]
  omega

theorem regRead_of_ofOffset_eq_none {off : Nat} (h : Reg.ofOffset off = none) (s : State) :
    regRead off s = .next (invalidRead (.word 0#32) s) := by
  rw [regRead, h]

/-- BUSY does not matter: the write is dropped for either reason. -/
theorem regWrite_of_ofOffset_eq_none {off : Nat} (h : Reg.ofOffset off = none) (v : Word) (s : State) :
    regWrite off v s = .next (accessError (noAnswer s)) := by
  rw [regWrite, h]
  split
  · contradiction
  · exact ite_self _

/-- Settles O36: an offset that is none of the eight has no register, and both accesses branch on that first. -/
theorem invalidOffsets : Obligations.InvalidOffsets := by
  refine ⟨fun _ => not_mem_registerMap_of_misaligned_or_beyond, fun off s hoff => ?_⟩
  have hnone : Reg.ofOffset off = none := Reg.ofOffset_eq_none_iff.2 hoff
  exact ⟨regRead_of_ofOffset_eq_none hnone s, fun v => regWrite_of_ofOffset_eq_none hnone v s⟩

end Sys2Proof.Machine
end

section
/-! The state after reset (10_state.md R37). -/

namespace Sys2Proof

/-- N_IBUF is legal whatever the free parameter is (00_scope.md R10). -/
theorem Config.nIbuf_le : Config.nIbuf ≤ 2 ^ 22 := by
  have := Config.nIbufExcess.isLt
  unfold Config.nIbuf
  omega

end Sys2Proof

namespace Sys2Proof.Machine

/-- PARAM holds N_IBUF without truncation: a legal N_IBUF fits its 23 bits. -/
@[simp] theorem State.reset_nIbuf : State.reset.nIbuf = Config.nIbuf := by
  have := Config.nIbuf_le
  exact (BitVec.toNat_ofNat _ _).trans (Nat.mod_eq_of_lt (by omega))

theorem statusWord_init (n : BitVec 23) (p : Op) : statusWord (State.init n p) = 0#32 := by
  simp [statusWord, State.init, flag]

/-- Settles O55: the fields are those of `State.init`, its buffers list nothing, and N_IBUF fits PARAM. -/
theorem resetState : Obligations.ResetState :=
  ⟨statusWord_init _ _, rfl, rfl, rfl, rfl, rfl, rfl, rfl, rfl, rfl, rfl, rfl, State.reset_nIbuf, rfl,
    Memory.written_nil, Memory.written_nil, Memory.written_nil⟩

end Sys2Proof.Machine
end

section
/-! CMD words (30_encoding.md R95, R96, R99): the decoder by its two fields, and illegal words written to CMD. -/

namespace Sys2Proof

/-- A CMD word is its two fields joined (30_encoding.md R95). -/
theorem zeroField_append_opField (w : Word) : zeroField w ++ opField w = w :=
  (BitVec.extractLsb'_append_extractLsb'_eq_extractLsb' rfl).trans BitVec.extractLsb'_eq_self

theorem opField_toNat (w : Word) : (opField w).toNat = w.toNat % 16 := by
  simp [opField]

theorem zeroField_eq_zero_iff {w : Word} : zeroField w = 0#28 ↔ w.toNat < 16 := by
  rw [← BitVec.toNat_inj, zeroField, BitVec.extractLsb'_toNat, BitVec.toNat_ofNat]
  omega

theorem decodeOp_eq_ok_iff {op : BitVec 4} {i : Instr} : decodeOp op = .ok i ↔ op = opCode i := by
  revert op
  cases i <;> decide

theorem decodeOp_eq_unassignedOp_iff {op : BitVec 4} :
    decodeOp op = .error .unassignedOp ↔ op.toNat = 0 ∨ (5 ≤ op.toNat ∧ op.toNat ≤ 14) := by
  revert op
  decide

theorem decode_of_lt {w : Word} (h : w.toNat < 16) : decode w = decodeOp (opField w) :=
  if_pos (zeroField_eq_zero_iff.2 h)

theorem decode_of_le {w : Word} (h : 16 ≤ w.toNat) : decode w = .error .reservedBits :=
  if_neg fun hz => absurd (zeroField_eq_zero_iff.1 hz) (by omega)

theorem decode_encode (i : Instr) : decode (encode i) = .ok i := by
  cases i <;> decide

/-- A command is selected by its own word and by no other (30_encoding.md R96). -/
theorem decode_eq_ok_iff {w : Word} {i : Instr} : decode w = .ok i ↔ w = encode i := by
  refine ⟨fun h => ?_, fun h => h ▸ decode_encode i⟩
  rw [decode] at h
  split at h
  case isTrue hz =>
    calc w = zeroField w ++ opField w := (zeroField_append_opField w).symm
      _ = encode i := by rw [hz, decodeOp_eq_ok_iff.1 h, encode]
  case isFalse => cases h

/-- A word that is no command's is rejected (30_encoding.md R99). -/
theorem exists_decode_eq_error {w : Word} (h : ∀ i, w ≠ encode i) : ∃ e, decode w = .error e := by
  cases hd : decode w with
  | ok i => exact absurd (decode_eq_ok_iff.1 hd) (h i)
  | error e => exact ⟨e, rfl⟩

end Sys2Proof

namespace Sys2Proof.Machine

/-- Settles O1: `decode_eq_ok_iff`, whose `encode i` is the row's word. -/
theorem commandMapIsExact : Obligations.CommandMapIsExact := fun _ =>
  ⟨decode_eq_ok_iff, decode_eq_ok_iff, decode_eq_ok_iff, decode_eq_ok_iff, decode_eq_ok_iff⟩

theorem regWrite_cmd (v : Word) (s : State) : regWrite 0x00 v s = writeCmd v (noAnswer s) := rfl

/-- An illegal word is rejected as ILLEGAL_OP by an idle block (43_control_and_host.md R191). -/
theorem writeCmd_illegal_idle {v : Word} {e : Reject} {s : State} (hv : decode v = .error e) (hs : s.busy = false) :
    writeCmd v s = .next (illegalCommand s) := by
  simp [writeCmd, hv, hs]

/-- An illegal word is dropped with AccessError by a busy block (43_control_and_host.md R192). -/
theorem writeCmd_illegal_busy {v : Word} {e : Reject} {s : State} (hv : decode v = .error e) (hs : s.busy = true) :
    writeCmd v s = .next (accessError s) := by
  simp [writeCmd, hv, hs]

/-- In an idle block ILLEGAL_OP's error entry leaves BUSY as it is: it writes four STATUS fields. -/
theorem illegalCommand_of_idle {s : State} (hs : s.busy = false) :
    illegalCommand s = { s with valid := false, err := true, errCode := 2#4, done := true } := by
  cases s
  cases hs
  rfl

/-- Settles O4: the zero field decides `reservedBits` and the OP field `unassignedOp`; a word that is no command's has
no decoding, and the CMD write branches on BUSY. -/
theorem illegalWordsAreRejected : Obligations.IllegalWordsAreRejected := by
  refine ⟨fun w => decode_of_le, fun w hw => ?_, fun w s h1 h2 h3 h4 h15 => ?_⟩
  · have hlt : w.toNat < 16 := by omega
    rw [decode_of_lt hlt, decodeOp_eq_unassignedOp_iff, opField_toNat, Nat.mod_eq_of_lt hlt]
    exact hw
  · have hne : ∀ i, w ≠ encode i
      | .encode => h1
      | .checksum => h2
      | .validate => h3
      | .scan => h4
      | .softReset => h15
    obtain ⟨e, he⟩ := exists_decode_eq_error hne
    rw [hostAccess, regWrite_cmd]
    constructor
    · intro hs
      have hidle : (noAnswer s).busy = false := (noAnswer_busy s).trans hs
      rw [writeCmd_illegal_idle he hidle, illegalCommand_of_idle hidle, noAnswer]
    · intro hs
      have hbusy : (noAnswer s).busy = true := (noAnswer_busy s).trans hs
      rw [writeCmd_illegal_busy he hbusy, accessError, noAnswer]

end Sys2Proof.Machine
end

section
/-! Descriptors of the reserved KIND (30_encoding.md R100). -/

namespace Sys2Proof

@[simp] theorem descKind_descWord (kind : BitVec 2) (off : Nat) (b : Byte) : descKind (descWord kind off b) = kind :=
  (BitVec.extractLsb'_append_eq_of_le (by decide)).trans BitVec.extractLsb'_append_eq_left

/-- The descriptor of an entry has KIND RAW, OK or BAD (42_frame_scanner.md R167). -/
theorem descKind_desc_ne_reserved (e : Entry) : descKind (desc e) ≠ 0b11#2 := by
  cases e with
  | raw off b => simp [desc]
  | frame tag off len => cases tag <;> simp [desc, Tag.kind]

end Sys2Proof

namespace Sys2Proof.Machine

/-- What is read after writes of consecutive entries is one of the values written or was there before. -/
theorem Memory.mem_or_read_of_read_writeList {w : Nat} {m : Memory w} {a b : Nat} {vs : List (BitVec w)} {v : BitVec w}
    (h : Memory.read (Memory.writeList m a vs) b = some v) : v ∈ vs ∨ Memory.read m b = some v := by
  rw [Memory.read_writeList] at h
  split at h
  · exact .inl (List.mem_of_getElem? h)
  · exact .inr h

/-- A command leaves RBUF as it is, empties it (SOFT_RESET), or stores the descriptors of scan entries in it. -/
theorem ExecNext.rbuf_cases {i : Instr} {s t : State} (h : ExecNext i s t) :
    t.rbuf = s.rbuf ∨ t.rbuf = [] ∨ ∃ r : List Entry, t.rbuf = Memory.writeList s.rbuf 0 (r.map desc) := by
  cases h with
  | accepted => exact .inl rfl
  | tooLong => exact .inl rfl
  | encoded => exact .inl rfl
  | summed => exact .inl rfl
  | validated => exact .inl rfl
  | scanned p => exact .inr (.inr ⟨scan p, rfl⟩)
  | reset => exact .inr (.inl rfl)

/-- A descriptor of the reserved KIND that stands in RBUF after a command stood there before it. -/
theorem ExecNext.read_rbuf_of_reserved {i : Instr} {s t : State} (h : ExecNext i s t) {a : Nat} {d : Word}
    (hread : Memory.read t.rbuf a = some d) (hkind : descKind d = 0b11#2) : Memory.read s.rbuf a = some d := by
  obtain heq | hnil | ⟨r, hstored⟩ := h.rbuf_cases
  · exact heq ▸ hread
  · rw [hnil] at hread
    cases hread
  · rw [hstored] at hread
    refine (Memory.mem_or_read_of_read_writeList hread).resolve_left fun hmem => ?_
    obtain ⟨e, -, rfl⟩ := List.mem_map.1 hmem
    exact descKind_desc_ne_reserved e hkind

theorem rbufRead_reserved {s : State} {a : Nat} {d : Word} (hidle : s.busy = false) (ha : a < s.nIbuf)
    (hread : Memory.read s.rbuf a = some d) (hkind : descKind d = 0b11#2) (hres : a < s.resCount.toNat) :
    rbufRead a s = .fault .reservedKind := by
  simp [rbufRead, Nat.not_le.2 ha, hidle, hread, hkind, hres]

/-- Settles O7: the only descriptors a command stores are those of scan entries, whose KIND is never 0b11. -/
theorem reservedKindIsNeverWritten : Obligations.ReservedKindIsNeverWritten :=
  ⟨fun _ _ _ _ _ hexec => (exec_next hexec).read_rbuf_of_reserved, fun _ _ _ => rbufRead_reserved⟩

end Sys2Proof.Machine
end

section
/-! The checksum and the frame encoder as functions (40_frame_encoder.md R120, R124). -/

namespace Sys2Proof.Machine

/-- The running sum of 8-bit additions is the sum over natural numbers, modulo 256 (40_frame_encoder.md R120). -/
theorem foldl_add_toNat (len : Byte) (p : List Byte) :
    (p.foldl (· + ·) len).toNat = (len.toNat + byteSum p) % 256 := by
  induction p generalizing len with
  | nil => exact (Nat.mod_eq_of_lt len.isLt).symm
  | cons b p ih =>
    calc (p.foldl (· + ·) (len + b)).toNat
      _ = ((len + b).toNat + byteSum p) % 256 := ih (len + b)
      _ = (len.toNat + (b.toNat + byteSum p)) % 256 := by rw [BitVec.toNat_add]; omega

theorem checksum_eq_zero_sub_foldl (len : Byte) (p : List Byte) :
    checksum len p = 0#8 - p.foldl (· + ·) len := by
  apply BitVec.eq_of_toNat_eq
  rw [checksum_toNat, BitVec.toNat_sub, foldl_add_toNat]
  rfl

/-- Settles O9: the formula is `checksum_toNat`, and reducing at every addition gives the same sum modulo 256. -/
theorem checksumFormula : Obligations.ChecksumFormula := fun len p =>
  ⟨byteSum_eq_sum p ▸ checksum_toNat len p, checksum_eq_zero_sub_foldl len p⟩

@[simp] theorem wireBytes_frameOf_length (p : List Byte) : (wireBytes (frameOf p)).length = p.length + 3 :=
  wireBytes_length (frameOf p)

theorem encodeFrame_of_le {p : List Byte} (h : p.length ≤ 255) : encodeFrame p = some (wireBytes (frameOf p)) :=
  if_pos h

theorem encodeFrame_of_tooLong {p : List Byte} (h : 255 < p.length) : encodeFrame p = none :=
  if_neg (Nat.not_le.2 h)

/-- Settles O13: `encodeFrame` branches on the payload's length; the bytes written out are `wireBytes (frameOf p)`,
three more than the payload's. -/
theorem encodeFunction : Obligations.EncodeFunction := fun p =>
  ⟨fun h => ⟨encodeFrame_of_le h, _, encodeFrame_of_le h, wireBytes_frameOf_length p⟩, encodeFrame_of_tooLong⟩

end Sys2Proof.Machine
end

section
/-! The completion steps of CHECKSUM and ENCODE (40_frame_encoder.md R123, R125, R126). -/

namespace Sys2Proof.Machine

theorem exec_checksum_of_busy {s : State} (hb : s.busy = true) : exec .checksum s = completeChecksum s :=
  if_pos hb

theorem exec_encode_of_busy {s : State} (hb : s.busy = true) : exec .encode s = completeEncode s :=
  if_pos hb

/-- Settles O17: the completion is `withInput`, which answers from the input's bytes or faults over an unwritten one. -/
theorem checksumCompletes : Obligations.ChecksumCompletes := by
  refine ⟨decode_encode .checksum, by decide, by decide, by decide, fun s hb => ⟨fun p hp => ?_, fun hw => ?_⟩⟩
  · rw [exec_checksum_of_busy hb, completeChecksum, withInput_of_inputIs hp]
    rfl
  · rw [exec_checksum_of_busy hb, completeChecksum, withInput_of_not_written hw]

/-- An over-long ENCODE raises INVALID_PAYLOAD_SIZE before IBUF is read (40_frame_encoder.md R126). -/
theorem exec_encode_of_tooLong {s : State} (hb : s.busy = true) (hlen : 255 < s.inLen.toNat) :
    exec .encode s = .next (raiseError invalidPayloadSize (setOutLen 0#9 s)) :=
  (exec_encode_of_busy hb).trans (if_pos hlen)

/-- ENCODE of at most 255 bytes completes over its input (40_frame_encoder.md R125). -/
theorem exec_encode_of_le {s : State} (hb : s.busy = true) (hlen : s.inLen.toNat ≤ 255) :
    exec .encode s = withInput s fun p => complete (storeFrame p s) :=
  (exec_encode_of_busy hb).trans (if_neg (Nat.not_lt.2 hlen))

/-- Settles O15: the error entry after OUT_LEN's clearing is the state the statement writes out. -/
theorem encodeTooLong : Obligations.EncodeTooLong := fun _ => exec_encode_of_tooLong

/-- OBUF[0..L+2] holds the frame after a successful ENCODE. -/
theorem read_storeFrame_obuf_of_lt {p : List Byte} {i : Nat} (h : i < p.length + 3) (s : State) :
    Memory.read (w := 8) (storeFrame p s).obuf i = (wireBytes (frameOf p))[i]? := by
  rw [storeFrame_obuf, Memory.read_writeList, wireBytes_frameOf_length, if_pos (by omega), Nat.sub_zero]

/-- OBUF behind the frame is as before a successful ENCODE. -/
theorem read_storeFrame_obuf_of_le {p : List Byte} {i : Nat} (h : p.length + 3 ≤ i) (s : State) :
    Memory.read (w := 8) (storeFrame p s).obuf i = Memory.read (w := 8) s.obuf i := by
  rw [storeFrame_obuf, Memory.read_writeList, wireBytes_frameOf_length, if_neg (by omega)]

/-- OUT_LEN has room for the length of every frame. -/
theorem storeFrame_outLen_toNat {p : List Byte} (h : p.length ≤ 255) (s : State) :
    (storeFrame p s).outLen.toNat = p.length + 3 := by
  rw [storeFrame_outLen, BitVec.toNat_ofNat, Nat.mod_eq_of_lt (by omega)]

/-- Settles O14: the completion checks the length, then stores the frame of the input's bytes or faults over an
unwritten one. -/
theorem encodeCompletes : Obligations.EncodeCompletes := by
  refine ⟨decode_encode .encode, by decide, by decide, by decide, by decide, fun s hb => ⟨fun p hp hlen => ?_,
    fun hlen hw => ?_, fun hlen => ⟨_, exec_encode_of_tooLong hb hlen, rfl, rfl⟩⟩⟩
  · have hexec : exec .encode s = .next (complete (storeFrame p s)) := by
      rw [exec_encode_of_le hb (hp.1 ▸ hlen), withInput_of_inputIs hp]
    exact ⟨_, hexec, fun i hi => read_storeFrame_obuf_of_lt hi s, fun i hi => read_storeFrame_obuf_of_le hi s,
      storeFrame_outLen_toNat hlen s, rfl⟩
  · rw [exec_encode_of_le hb hlen, withInput_of_not_written hw]

end Sys2Proof.Machine
end

section
/-! The validate predicate and the completion step of VALIDATE (41_frame_decoder.md R140, R142). -/

namespace Sys2Proof.Machine

theorem validate_of_length_le {f : List Byte} (h : f.length ≤ 3) : validate f = false :=
  if_pos (Nat.lt_succ_of_le h)

/-- The four checks as one conjunction (41_frame_decoder.md R140, R141). -/
theorem validate_iff_byteAt {f : List Byte} :
    validate f = true ↔
      4 ≤ f.length ∧ byteAt f 0 = startCode ∧ 2 + (byteAt f 1).toNat < f.length ∧
        byteAt f (2 + (byteAt f 1).toNat) = checksum (byteAt f 1) (slice f 2 (byteAt f 1).toNat) := by
  rw [validate]
  split
  next hshort => simp [Nat.not_le.2 hshort]
  next hfloor =>
    split
    next hstart => simp [hstart]
    next hstart =>
      split
      next hbeyond => simp [Nat.not_lt.2 hbeyond]
      next hfits =>
        rw [beq_iff_eq]
        simp only [Nat.not_lt.1 hfloor, not_not.1 hstart, Nat.not_le.1 hfits, true_and]

/-- Where the declared frame fits, `validate` is its start byte and its checksum byte, above the 4-byte floor. -/
theorem validate_iff_of_fits {f : List Byte} {len : Byte} (hlen : f[1]? = some len)
    (hfits : 2 + len.toNat < f.length) :
    validate f = true ↔ 4 ≤ f.length ∧ f[0]? = some 0x02#8 ∧
      f[2 + len.toNat]? = some (checksum len ((f.drop 2).take len.toNat)) := by
  have hstart : f[0]? = some (byteAt f 0) := getElem?_of_lt (by omega)
  have hcheck : f[2 + len.toNat]? = some (byteAt f (2 + len.toNat)) := getElem?_of_lt hfits
  rw [validate_iff_byteAt, byteAt_of_getElem? hlen, hstart, hcheck]
  simp [hfits, startCode, slice]

/-- A valid frame fits the input: its length byte and its checksum byte are there. -/
theorem exists_fits_of_validate {f : List Byte} (h : validate f = true) :
    ∃ len : Byte, f[1]? = some len ∧ 2 + len.toNat < f.length := by
  obtain ⟨hfloor, -, hfits, -⟩ := validate_iff_byteAt.1 h
  exact ⟨byteAt f 1, getElem?_of_lt (by omega), hfits⟩

/-- `validate` reads the declared frame and nothing behind it, but for the 4-byte floor (41_frame_decoder.md R140). -/
theorem validate_eq_of_take_eq {f g : List Byte} {len : Byte} (hf : 4 ≤ f.length) (hg : 4 ≤ g.length)
    (hlen : f[1]? = some len) (hfitsF : 3 + len.toNat ≤ f.length) (hfitsG : 3 + len.toNat ≤ g.length)
    (htake : f.take (3 + len.toNat) = g.take (3 + len.toNat)) : validate f = validate g := by
  have hbyte (i : Nat) (hi : i < 3 + len.toNat) : f[i]? = g[i]? := by
    rw [← List.getElem?_take_of_lt hi, htake, List.getElem?_take_of_lt hi]
  have hpayload : (f.drop 2).take len.toNat = (g.drop 2).take len.toNat := by
    have htake' := congrArg (List.take (2 + len.toNat)) htake
    simp only [List.take_take, Nat.min_eq_left (show 2 + len.toNat ≤ 3 + len.toNat by omega)] at htake'
    rw [List.take_drop, List.take_drop, htake']
  have hlenG : g[1]? = some len := hbyte 1 (by omega) ▸ hlen
  rw [Bool.eq_iff_iff, validate_iff_of_fits hlen (by omega), validate_iff_of_fits hlenG (by omega),
    hbyte 0 (by omega), hbyte (2 + len.toNat) (by omega), hpayload]
  simp [hf, hg]

/-- Settles O18: an input passes only if its declared frame fits, and then the result is that of the frame's bytes. -/
theorem validateChecks : Obligations.ValidateChecks := by
  refine ⟨fun f => ⟨fun h => ?_, ?_⟩, fun _ _ _ => validate_eq_of_take_eq⟩
  · obtain ⟨len, hlen, hfits⟩ := exists_fits_of_validate h
    obtain ⟨hfloor, hstart, hcheck⟩ := (validate_iff_of_fits hlen hfits).1 h
    exact ⟨hfloor, hstart, len, hlen, hfits, hcheck⟩
  · rintro ⟨hfloor, hstart, len, hlen, hfits, hcheck⟩
    exact (validate_iff_of_fits hlen hfits).2 ⟨hfloor, hstart, hcheck⟩

theorem validate_cons_of_ne_start {b : Byte} (h : b ≠ 0x02#8) (f : List Byte) : validate (b :: f) = false := by
  refine Bool.eq_false_of_not_eq_true fun hvalid => h ?_
  obtain ⟨-, hstart, -, -⟩ := validate_iff_byteAt.1 hvalid
  exact hstart

/-- Behind the frame of the empty payload, one byte of any value lifts the input over the 4-byte floor. -/
theorem validate_empty_frame_with_extra (x : Byte) : validate [0x02#8, 0x00#8, 0x00#8, x] = true := by
  have hcheck : checksum 0x00#8 [] = 0x00#8 := by decide
  exact (validate_iff_of_fits (len := 0x00#8) rfl (by simp)).2 ⟨by simp, rfl, by simp [hcheck]⟩

/-- A valid frame stays valid with any bytes behind it. -/
theorem validate_append {f : List Byte} (h : validate f = true) (g : List Byte) : validate (f ++ g) = true := by
  obtain ⟨len, hlen, hfits⟩ := exists_fits_of_validate h
  obtain ⟨hfloor, -⟩ := validate_iff_byteAt.1 h
  have hle : f.length ≤ (f ++ g).length := by simp
  have htake : f.take (3 + len.toNat) = (f ++ g).take (3 + len.toNat) :=
    (List.take_append_of_le_length (by omega)).symm
  exact (validate_eq_of_take_eq hfloor (by omega) hlen (by omega) (by omega) htake).symm.trans h

theorem exec_validate_of_busy {s : State} (hb : s.busy = true) : exec .validate s = completeValidate s :=
  if_pos hb

/-- Settles O19: the corner cases are those of `validate`; the completion is `withInput`, which answers from the input's
bytes or faults over an unwritten one. -/
theorem validateCompletes : Obligations.ValidateCompletes := by
  refine ⟨decode_encode .validate, fun _ => validate_of_length_le, by decide, validate_empty_frame_with_extra, by decide,
    fun _ f hb => validate_cons_of_ne_start hb f, fun _ g hf => validate_append hf g, by decide,
    fun s hb => ⟨fun f hf => ?_, fun hw => ?_⟩⟩
  · rw [exec_validate_of_busy hb, completeValidate, withInput_of_inputIs hf]
    rfl
  · rw [exec_validate_of_busy hb, completeValidate, withInput_of_not_written hw]

end Sys2Proof.Machine
end

section
/-! Descriptors of scan entries (42_frame_scanner.md R167): the rule's formula, and the three fields read back. -/

namespace Sys2Proof

theorem descWord_toNat {off : Nat} (h : off < 2 ^ 22) (kind : BitVec 2) (b : Byte) :
    (descWord kind off b).toNat = (kind.toNat <<< 22 ||| off) <<< 8 ||| b.toNat := by
  calc (descWord kind off b).toNat
    _ = (kind ++ BitVec.ofNat 22 off).toNat <<< 8 ||| b.toNat := BitVec.toNat_append _ _
    _ = (kind.toNat <<< 22 ||| off) <<< 8 ||| b.toNat := by
      rw [BitVec.toNat_append, BitVec.toNat_ofNat, Nat.mod_eq_of_lt h]

/-- A descriptor's fields joined are its fields shifted to their places, if the offset fits its field: no shift in the
rule's formula loses a bit. -/
theorem descWord_eq_or {off : Nat} (h : off < 2 ^ 22) (kind : BitVec 2) (b : Byte) :
    descWord kind off b = (kind.setWidth 32 <<< 30) ||| (BitVec.ofNat 32 off <<< 8) ||| b.setWidth 32 := by
  have hkind : kind.toNat < 4 := kind.isLt
  have hkind32 : (kind.setWidth 32 <<< 30).toNat = kind.toNat * 2 ^ 30 := by
    rw [BitVec.toNat_shiftLeft, BitVec.toNat_setWidth, Nat.shiftLeft_eq]; omega
  have hoff32 : (BitVec.ofNat 32 off <<< 8).toNat = off * 2 ^ 8 := by
    rw [BitVec.toNat_shiftLeft, BitVec.toNat_ofNat, Nat.shiftLeft_eq]; omega
  have hb32 : (b.setWidth 32).toNat = b.toNat := BitVec.toNat_setWidth_of_le (by decide)
  apply BitVec.eq_of_toNat_eq
  rw [descWord_toNat h, BitVec.toNat_or, BitVec.toNat_or, hkind32, hoff32, hb32, Nat.shiftLeft_or_distrib,
    ← Nat.shiftLeft_add, Nat.shiftLeft_eq, Nat.shiftLeft_eq]

/-- Settles O5: `descWord_eq_or` at the three KIND codes. -/
theorem descriptorFormula : Obligations.DescriptorFormula := fun _ b h =>
  ⟨descWord_eq_or h 0b00#2 b, descWord_eq_or h 0b01#2 b, descWord_eq_or h 0b10#2 b⟩

theorem descOffset_descWord {off : Nat} (h : off < 2 ^ 22) (kind : BitVec 2) (b : Byte) :
    descOffset (descWord kind off b) = off := by
  rw [descOffset, descWord, BitVec.extractLsb'_append_eq_of_le (by decide), BitVec.extractLsb'_append_eq_right]
  exact (BitVec.toNat_ofNat _ _).trans (Nat.mod_eq_of_lt h)

@[simp] theorem descByte_descWord (kind : BitVec 2) (off : Nat) (b : Byte) : descByte (descWord kind off b) = b :=
  BitVec.extractLsb'_append_eq_right

end Sys2Proof
end

section
/-! The turns of the scan, read off the buffer (42_frame_scanner.md R160 to R164). -/

namespace Sys2Proof.Machine

variable {buf : List Byte} {c : Nat} {b len e : Byte}

theorem ite_tag_eq_ok_iff {p : Prop} [Decidable p] : (if p then Tag.ok else Tag.bad) = .ok ↔ p := by
  split <;> simp [*]

theorem ite_tag_eq_bad_iff {p : Prop} [Decidable p] : (if p then Tag.ok else Tag.bad) = .bad ↔ ¬ p := by
  split <;> simp [*]

/-- A frame is emitted where a start byte and a length byte stand and the declared checksum byte is in the buffer. -/
theorem frameFits_iff_getElem? :
    frameFits buf c = true ↔
      ∃ len : Byte, buf[c]? = some 0x02#8 ∧ buf[c + 1]? = some len ∧ c + 2 + len.toNat < buf.length := by
  rw [frameFits_iff]
  constructor
  · rintro ⟨hstart, htwo, hfits⟩
    have hb : buf[c]? = some (byteAt buf c) := getElem?_of_lt (by omega)
    exact ⟨byteAt buf (c + 1), hb.trans (congrArg some hstart), getElem?_of_lt (by omega), hfits⟩
  · rintro ⟨len, hstart, hlen, hfits⟩
    rw [byteAt_of_getElem? hstart, byteAt_of_getElem? hlen]
    exact ⟨rfl, by omega, hfits⟩

theorem entryAt_of_not_fits (hb : buf[c]? = some b) (h : ¬ frameFits buf c = true) : entryAt buf c = .raw c b := by
  rw [entryAt, if_neg h, byteAt_of_getElem? hb]

theorem entryAt_of_frame (hstart : buf[c]? = some 0x02#8) (hlen : buf[c + 1]? = some len)
    (hcheck : buf[c + 2 + len.toNat]? = some e) :
    entryAt buf c =
      .frame (if e = checksum len ((buf.drop (c + 2)).take len.toNat) then .ok else .bad) c len := by
  have hfits := frameFits_iff_getElem?.2 ⟨len, hstart, hlen, (List.getElem?_eq_some_iff.1 hcheck).1⟩
  simp only [entryAt, hfits, if_true, tagAt, slice, byteAt_of_getElem? hlen, byteAt_of_getElem? hcheck]

/-- Raw emission (42_frame_scanner.md R161). -/
theorem scanFrom_of_not_fits (hb : buf[c]? = some b) (h : ¬ frameFits buf c = true) :
    scanFrom buf c = .raw c b :: scanFrom buf (c + 1) := by
  rw [scanFrom_of_lt (List.getElem?_eq_some_iff.1 hb).1, entryAt_of_not_fits hb h, entrySpan]

/-- Frame emission (42_frame_scanner.md R162, R163). -/
theorem scanFrom_of_frame (hstart : buf[c]? = some 0x02#8) (hlen : buf[c + 1]? = some len)
    (hcheck : buf[c + 2 + len.toNat]? = some e) :
    scanFrom buf c =
      .frame (if e = checksum len ((buf.drop (c + 2)).take len.toNat) then .ok else .bad) c len ::
        scanFrom buf (c + 2 + len.toNat + 1) := by
  rw [scanFrom_of_lt (List.getElem?_eq_some_iff.1 hstart).1, entryAt_of_frame hstart hlen hcheck, entrySpan,
    show c + (len.toNat + 3) = c + 2 + len.toNat + 1 by omega]

/-- Settles O23: the end of the buffer, frame emission and raw emission are the three branches of the scan's turn. -/
theorem scanIsOnePass : Obligations.ScanIsOnePass := by
  refine fun buf => ⟨rfl, fun c => scanFrom_of_le, fun c b hb => ⟨?_, fun hraw => ?_⟩⟩
  · rintro len e rfl - hlen hcheck
    exact scanFrom_of_frame hb hlen hcheck
  · refine scanFrom_of_not_fits hb fun hfits => hraw ?_
    obtain ⟨len, hstart, hlen, hend⟩ := frameFits_iff_getElem?.1 hfits
    exact ⟨Option.some.inj (hb.symm.trans hstart), by omega, len, hlen, hend⟩

/-- Settles O24: in each of the three cases no frame fits at the cursor. -/
theorem rawEmission : Obligations.RawEmission := by
  refine fun buf c b hb hraw => scanFrom_of_not_fits hb fun hfits => ?_
  obtain ⟨len, hstart, hlen, hend⟩ := frameFits_iff_getElem?.1 hfits
  obtain hne | ⟨-, hshort⟩ | ⟨-, -, len', hlen', hbeyond⟩ := hraw
  · exact hne (Option.some.inj (hb.symm.trans hstart))
  · omega
  · cases hlen.symm.trans hlen'
    omega

/-- Settles O25: `scanFrom_of_frame`, whose tag branches on the checksum test alone. -/
theorem frameEmission : Obligations.FrameEmission := by
  refine ⟨fun buf c len e hstart hlen hcheck => ?_, by decide⟩
  exact ⟨_, scanFrom_of_frame hstart hlen hcheck, rfl, ite_tag_eq_ok_iff, ite_tag_eq_bad_iff⟩

/-- Where no frame fits anywhere, the scan has one Raw entry for each byte that is left. -/
theorem scanFrom_of_noise (h : ∀ i, ¬ frameFits buf i = true) (c : Nat) :
    scanFrom buf c = (List.range' c (buf.length - c)).map fun i => .raw i (byteAt buf i) := by
  induction hn : buf.length - c generalizing c with
  | zero => exact scanFrom_of_le (by omega)
  | succ n ih =>
    rw [scanFrom_of_not_fits (getElem?_of_lt (by omega)) (h c), ih (c + 1) (by omega)]
    rfl

/-- Settles O26: under either premise no frame fits anywhere. -/
theorem noiseScansToRawBytes : Obligations.NoiseScansToRawBytes := by
  refine ⟨rfl, fun buf hnoise => ?_⟩
  have hfits : ∀ i, ¬ frameFits buf i = true := fun i hi => by
    obtain ⟨len, hstart, hlen, hend⟩ := frameFits_iff_getElem?.1 hi
    obtain hno | hnone := hnoise
    · exact hno _ (List.mem_of_getElem? hstart) rfl
    · exact absurd (hnone i len hstart hlen) (by omega)
  rw [scan, scanFrom_of_noise hfits]
  refine ⟨by simp, fun c b hb => ?_⟩
  have hc : c < buf.length := (List.getElem?_eq_some_iff.1 hb).1
  simp [hc, byteAt_of_getElem? hb]

end Sys2Proof.Machine
end

section
/-! The completion step of SCAN (42_frame_scanner.md R166). -/

namespace Sys2Proof.Machine

theorem scanLoop_length_le (buf : List Byte) (fuel c : Nat) : (scanLoop buf fuel c).length ≤ fuel := by
  induction fuel generalizing c with
  | zero => exact Nat.le_refl 0
  | succ fuel ih =>
    rw [scanLoop]
    split
    · exact Nat.succ_le_succ (ih _)
    · exact Nat.zero_le _

/-- A scan has at most one entry per byte (42_frame_scanner.md R171). -/
theorem scan_length_le (buf : List Byte) : (scan buf).length ≤ buf.length := scanLoop_length_le buf _ 0

theorem exec_scan_of_busy {s : State} (hb : s.busy = true) : exec .scan s = completeScan s :=
  if_pos hb

/-- RBUF[k] holds the descriptor of entry k after a SCAN. -/
theorem read_storeResult_rbuf_of_lt {r : List Entry} {k : Nat} (h : k < r.length) (s : State) :
    Memory.read (storeResult r s).rbuf k = r[k]?.map desc := by
  rw [storeResult_rbuf, Memory.read_writeList, List.length_map, if_pos (by omega), Nat.sub_zero, List.getElem?_map]

/-- RBUF behind the result is as before a SCAN. -/
theorem read_storeResult_rbuf_of_le {r : List Entry} {k : Nat} (h : r.length ≤ k) (s : State) :
    Memory.read (storeResult r s).rbuf k = Memory.read s.rbuf k := by
  rw [storeResult_rbuf, Memory.read_writeList, List.length_map, if_neg (by omega)]

/-- RES_COUNT has room for the result of every scan of an input: IN_LEN is as wide. -/
theorem storeResult_scan_resCount_toNat {s : State} {buf : List Byte} (h : s.InputIs buf) :
    (storeResult (scan buf) s).resCount.toNat = (scan buf).length := by
  have hlen : buf.length < 2 ^ 23 := h.1 ▸ s.inLen.isLt
  rw [storeResult_resCount, BitVec.toNat_ofNat, Nat.mod_eq_of_lt ((scan_length_le buf).trans_lt hlen)]

/-- Settles O30: the corner cases run; the completion is `withInput`, which stores the descriptors of the input's scan
or faults over an unwritten byte. -/
theorem scanCompletes : Obligations.ScanCompletes := by
  refine ⟨decode_encode .scan, rfl, by decide, by decide, by decide, by decide, by decide, by decide, by decide,
    by decide, fun s hb => ⟨fun buf hbuf => ?_, fun hw => ?_⟩⟩
  · have hexec : exec .scan s = .next (complete (storeResult (scan buf) s)) := by
      rw [exec_scan_of_busy hb, completeScan, withInput_of_inputIs hbuf]
    exact ⟨_, hexec, fun k hk => read_storeResult_rbuf_of_lt hk s, fun k hk => read_storeResult_rbuf_of_le hk s,
      storeResult_scan_resCount_toNat hbuf, rfl⟩
  · rw [exec_scan_of_busy hb, completeScan, withInput_of_not_written hw]

end Sys2Proof.Machine
end

section
/-! The decode view (42_frame_scanner.md R168): what a descriptor denotes over a buffer that holds the scanned bytes. -/

namespace Sys2Proof.Machine

theorem kind_eq_ok_or_bad (tag : Tag) : tag.kind = 0b01#2 ∨ tag.kind = 0b10#2 := by
  cases tag <;> decide

theorem kind_eq_ok_iff {tag : Tag} : tag.kind = 0b01#2 ↔ tag = .ok := by
  cases tag <;> decide

/-- A descriptor whose offset fits its field stands for its entry (30_encoding.md R97, R98). -/
theorem entryOfDesc_desc {e : Entry} (h : entryOffset e < 2 ^ 22) : entryOfDesc (desc e) = some e := by
  cases e with
  | raw off b =>
    have hoff : off < 2 ^ 22 := h
    simp [desc, entryOfDesc, descOffset_descWord hoff]
  | frame tag off len =>
    have hoff : off < 2 ^ 22 := h
    cases tag <;> simp [desc, entryOfDesc, descOffset_descWord hoff, Tag.kind]

/-- Every entry of a scan is the one emitted at some cursor inside the buffer. -/
theorem exists_entryAt_of_mem_scanLoop {buf : List Byte} {fuel c : Nat} {e : Entry} (h : e ∈ scanLoop buf fuel c) :
    ∃ i < buf.length, e = entryAt buf i := by
  induction fuel generalizing c with
  | zero => cases h
  | succ fuel ih =>
    rw [scanLoop] at h
    split at h
    next hc =>
      obtain rfl | htail := List.mem_cons.1 h
      · exact ⟨c, hc, rfl⟩
      · exact ih htail
    next => cases h

/-- After a SCAN each result is the descriptor of the entry emitted at some cursor inside the input. -/
theorem exists_read_storeResult_scan_rbuf {buf : List Byte} {k : Nat} (h : k < (scan buf).length) (s : State) :
    ∃ c < buf.length, Memory.read (storeResult (scan buf) s).rbuf k = some (desc (entryAt buf c)) := by
  obtain ⟨c, hc, hentry⟩ := exists_entryAt_of_mem_scanLoop (List.getElem_mem h)
  refine ⟨c, hc, ?_⟩
  rw [read_storeResult_rbuf_of_lt h, List.getElem?_eq_getElem h, hentry]
  rfl

variable {m : Memory 8} {buf : List Byte} {c : Nat} {b len e : Byte}

theorem readList_of_holds {n : Nat} (hm : ∀ i < buf.length, Memory.read m i = buf[i]?) (h : c + n ≤ buf.length) :
    Memory.readList m c n = some ((buf.drop c).take n) := by
  refine Memory.readList_eq_some_iff.2 ⟨by simp; omega, fun j hj => ?_⟩
  rw [hm _ (by omega), List.getElem?_take_of_lt hj, List.getElem?_drop]

/-- A buffer that holds the bytes of a frame reads as that frame. -/
theorem frameAt_of_holds (hm : ∀ i < buf.length, Memory.read m i = buf[i]?) (hstart : buf[c]? = some b)
    (hlen : buf[c + 1]? = some len) (hcheck : buf[c + 2 + len.toNat]? = some e) :
    frameAt m c len =
      some { startByte := b, length := len, payload := (buf.drop (c + 2)).take len.toNat, checksum := e } := by
  have hend : c + 2 + len.toNat < buf.length := (List.getElem?_eq_some_iff.1 hcheck).1
  rw [frameAt, hm c (by omega), hm (c + 1) (by omega), readList_of_holds hm (by omega), hm _ hend, hstart, hlen, hcheck]

theorem decodeView_desc_frame {tag : Tag} (h : c < 2 ^ 22) :
    decodeView m (desc (.frame tag c len)) = frameAt m c len := by
  rw [decodeView, entryOfDesc_desc (e := .frame tag c len) h]

/-- Settles O32: entry `k` of the scan is the one emitted at some cursor `c`; where no frame fits it is the byte there,
else the frame that the buffer holds from `c` on, tagged by its checksum. -/
theorem decodeViewAfterScan : Obligations.DecodeViewAfterScan := by
  intro s t u hb hinLen hexec hibuf hrbuf hres k hk
  rw [exec_scan_of_busy hb] at hexec
  obtain ⟨buf, hbuf, rfl⟩ := withInput_next hexec
  have ⟨hbufLen, hbufRead⟩ := hbuf
  have hm : ∀ i < buf.length, Memory.read (w := 8) u.ibuf i = buf[i]? := hibuf ▸ hbufRead
  rw [hres, complete_resCount, storeResult_scan_resCount_toNat hbuf] at hk
  obtain ⟨c, hc, hread⟩ := exists_read_storeResult_scan_rbuf hk s
  have hoff : c < 2 ^ 22 := hc.trans_le (hbufLen ▸ hinLen)
  refine ⟨_, hrbuf ▸ hread, ?_⟩
  by_cases hfits : frameFits buf c = true
  · obtain ⟨len, hstart, hlen, hend⟩ := frameFits_iff_getElem?.1 hfits
    have hcheck := getElem?_of_lt hend
    obtain ⟨hplen, hpayload⟩ := Memory.readList_eq_some_iff.1 (readList_of_holds hm (c := c + 2) hend.le)
    rw [entryAt_of_frame hstart hlen hcheck]
    refine .inr ⟨_, ?_, (decodeView_desc_frame hoff).trans (frameAt_of_holds hm hstart hlen hcheck), rfl, ?_⟩
    all_goals simp only [desc, descKind_descWord, descOffset_descWord hoff, descByte_descWord]
    · exact kind_eq_ok_or_bad _
    · exact ⟨(hm c hc).trans hstart, trivial, (hm _ (by omega)).trans hlen, hplen, hpayload,
        (hm _ hend).trans hcheck, kind_eq_ok_iff.trans ite_tag_eq_ok_iff⟩
  · have hbyte := getElem?_of_lt hc
    rw [entryAt_of_not_fits hbyte hfits]
    refine .inl ⟨_, descKind_descWord _ _ _, rfl, ?_⟩
    rw [desc, descOffset_descWord hoff, descByte_descWord, hm c hc, hbyte]

end Sys2Proof.Machine
end

section
/-! What each host access answers, by its offset or index and by BUSY (43_control_and_host.md R192 to R199). -/

namespace Sys2Proof.Machine

/-! ### Register reads (43_control_and_host.md R194) -/

/-- The output registers read as a fresh free word while BUSY = 1 (70_reset_and_hazards.md R255). -/
theorem regRead_of_busy {r : Reg} {s : State} (hr : outputReg r = true) (hb : s.busy = true) :
    regRead r.offset s = .next (answerFreeWord s) := by
  simp [regRead, Reg.ofOffset_eq_some_iff.2 rfl, hr, hb]

/-- A register other than STATUS reads as its value, unless it is an output register while BUSY = 1. -/
theorem regRead_value {r : Reg} {s : State} (hr : r ≠ .status) (h : outputReg r = false ∨ s.busy = false) :
    regRead r.offset s = .next (answer (.word (regValue s r)) s) := by
  have hfree : (s.busy && outputReg r) = false := Bool.and_eq_false_iff.2 h.symm
  simp [regRead, Reg.ofOffset_eq_some_iff.2 rfl, hfree, hr]

theorem regRead_status_of_le {s : State} (h : s.errCode.toNat ≤ 2) :
    regRead Reg.status.offset s = .next (answer (.word (statusWord s)) s) := by
  rw [regRead_status, if_neg (by simpa [reservedErrCode] using h)]

theorem toNat_append_eq_add {m n : Nat} (x : BitVec m) (y : BitVec n) :
    (x ++ y).toNat = x.toNat * 2 ^ n + y.toNat := by
  rw [BitVec.toNat_append, ← Nat.shiftLeft_add_eq_or_of_lt y.isLt, Nat.shiftLeft_eq]

/-- Each field of STATUS at its bit (10_state.md R24). -/
theorem statusWord_toNat (s : State) :
    (statusWord s).toNat = s.busy.toNat + 2 * s.done.toNat + 4 * s.err.toNat + 8 * s.valid.toNat +
      16 * s.errCode.toNat + 256 * s.aerr.toNat := by
  simp only [statusWord, flag, toNat_append_eq_add, BitVec.toNat_ofBool, BitVec.toNat_ofNat]
  omega

/-- A read whose word is a register's value zero-extended answers the value itself: no register is wider than a word. -/
theorem exists_regRead_value {r : Reg} {s : State} {n : Nat} (x : BitVec n) (hx : regValue s r = x.setWidth 32)
    (hn : n ≤ 32) (hr : r ≠ .status) (h : outputReg r = false ∨ s.busy = false) :
    ∃ v : Word, hostAccess (.regRead r.offset) s = .next { s with reply := some (.word v) } ∧ v.toNat = x.toNat :=
  ⟨x.setWidth 32, hx ▸ regRead_value hr h, BitVec.toNat_setWidth_of_le hn⟩

/-- Settles O37: a register reads as its value (`regRead_value`, `regRead_status_of_le`), an output register of a busy
block as a free word (`regRead_of_busy`), and every other offset is O36's. -/
theorem regReadValues : Obligations.RegReadValues := fun s =>
  ⟨regRead_value (r := .cmd) (by decide) (.inl rfl),
    fun hcode => ⟨statusWord s, regRead_status_of_le hcode, statusWord_toNat s⟩,
    exists_regRead_value (r := .inLen) s.inLen rfl (by decide) (by decide) (.inl rfl),
    exists_regRead_value (r := .csLen) s.csLen rfl (by decide) (by decide) (.inl rfl),
    exists_regRead_value (r := .param) s.param rfl (by decide) (by decide) (.inl rfl),
    fun hidle =>
      ⟨exists_regRead_value (r := .csum) s.csum rfl (by decide) (by decide) (.inr hidle),
        exists_regRead_value (r := .outLen) s.outLen rfl (by decide) (by decide) (.inr hidle),
        exists_regRead_value (r := .resCount) s.resCount rfl (by decide) (by decide) (.inr hidle)⟩,
    fun hb => List.forall_mem_cons.2 ⟨regRead_of_busy (r := .csum) rfl hb, List.forall_mem_cons.2
      ⟨regRead_of_busy (r := .outLen) rfl hb, List.forall_mem_singleton.2 (regRead_of_busy (r := .resCount) rfl hb)⟩⟩,
    fun off hoff => (invalidOffsets.2 off s hoff).1⟩

/-! ### Buffer reads (43_control_and_host.md R197 to R199) -/

/-- Settles O41: the index is checked, then the written mark; BUSY plays no part. -/
theorem ibufReadReturns : Obligations.IbufReadReturns := by
  intro s i
  simp only [hostAccess, ibufRead]
  refine ⟨fun hi => if_pos hi, fun hi hw => ?_, fun b hi hread => ?_⟩
  · rw [if_neg (Nat.not_le.2 hi), Memory.written_eq_false.1 hw]
  · rw [if_neg (Nat.not_le.2 hi), hread]
    rfl

/-- Settles O42: the index is checked, then BUSY, then the written mark. -/
theorem obufReadReturns : Obligations.ObufReadReturns := by
  intro s i
  have hin : i < 258 → ¬ maxFrame ≤ i := Nat.not_le.2
  simp only [hostAccess, obufRead]
  refine ⟨fun hi => if_pos hi, fun hi hb => ?_, fun hi hidle hw => ?_, fun b hi hidle hread => ?_⟩
  · rw [if_neg (hin hi), if_pos hb]
    rfl
  · rw [if_neg (hin hi), if_neg (ne_true_of_eq_false hidle), Memory.written_eq_false.1 hw]
  · rw [if_neg (hin hi), if_neg (ne_true_of_eq_false hidle), hread]
    rfl

/-- Settles O43: the index is checked, then BUSY, then the written mark, then the KIND in the result range. -/
theorem rbufReadReturns : Obligations.RbufReadReturns := by
  intro s i
  simp only [hostAccess, rbufRead]
  refine ⟨fun hi => if_pos hi, fun hi hb => ?_, fun hi hidle hw => ?_, fun d hi hidle hread hkind => ?_⟩
  · rw [if_neg (Nat.not_le.2 hi), if_pos hb]
    rfl
  · rw [if_neg (Nat.not_le.2 hi), if_neg (ne_true_of_eq_false hidle), Memory.written_eq_false.1 hw]
  · rw [if_neg (Nat.not_le.2 hi), if_neg (ne_true_of_eq_false hidle), hread]
    exact if_neg hkind

/-! ### Writes (43_control_and_host.md R192, R195, R196) -/

/-- A command's word is taken by an idle block, and SOFT_RESET's by a busy one too. -/
theorem writeCmd_taken {v : Word} {i : Instr} {s : State} (hv : decode v = .ok i)
    (h : s.busy = false ∨ i = .softReset) : writeCmd v s = exec i s := by
  have htaken : (s.busy && i != .softReset) = false := by
    obtain hidle | rfl := h
    · rw [hidle, Bool.false_and]
    · exact Bool.and_false _
  simp [writeCmd, hv, htaken]

/-- While BUSY = 1 only SOFT_RESET's word is taken. -/
theorem writeCmd_dropped {v : Word} {s : State} (hb : s.busy = true) (hv : v ≠ encode .softReset) :
    writeCmd v s = .next (accessError s) := by
  cases hd : decode v with
  | error e => exact writeCmd_illegal_busy hd hb
  | ok i =>
    have hi : i ≠ .softReset := by
      rintro rfl
      exact hv (decode_eq_ok_iff.1 hd)
    simp [writeCmd, hd, hb, hi]

theorem regWrite_cmd_taken {v : Word} {i : Instr} {s : State} (hv : decode v = .ok i)
    (h : s.busy = false ∨ i = .softReset) : regWrite 0x00 v s = exec i (noAnswer s) :=
  writeCmd_taken hv h

/-- A write to a register other than CMD while BUSY = 0 (43_control_and_host.md R195). -/
theorem regWrite_of_idle {r : Reg} {s : State} (hr : r ≠ .cmd) (hidle : s.busy = false) (v : Word) :
    regWrite r.offset v s = .next (writeIdleReg (some r) v (noAnswer s)) := by
  cases r with
  | cmd => exact absurd rfl hr
  | _ => exact if_neg (ne_true_of_eq_false hidle)

/-- While BUSY = 1 every register write but SOFT_RESET is dropped (43_control_and_host.md R192). -/
theorem regWrite_of_busy {s : State} (hb : s.busy = true) {off : Nat} {v : Word}
    (h : ¬ (off = 0x00 ∧ v = 0x0000000F#32)) : regWrite off v s = .next (accessError (noAnswer s)) := by
  rw [regWrite]
  split
  next hcmd =>
    have hoff : off = 0x00 := Reg.ofOffset_eq_some_iff.1 hcmd
    exact writeCmd_dropped hb fun hv => h ⟨hoff, hv⟩
  next => exact if_pos hb

theorem exec_softReset (s : State) : exec .softReset s = .next (resetBlock s) := rfl

@[simp] theorem statusWord_resetBlock (s : State) : statusWord (resetBlock s) = 0#32 :=
  statusWord_init s.param (Config.freePending s.draws)

/-- Settles O35: register writes are `regWrite_of_busy`; IbufWrite checks BUSY first; SOFT_RESET's reset clears BUSY. -/
theorem writesWhileBusyAreDropped : Obligations.WritesWhileBusyAreDropped := fun s hb =>
  ⟨fun _ _ => regWrite_of_busy hb, fun _ _ => if_pos hb,
    resetBlock (noAnswer s), regWrite_cmd_taken (decode_encode .softReset) (.inr rfl), resetBlock_busy _⟩

/-- Settles O33: the reset state is `State.init`'s, which lists no buffer entry; the CMD write takes SOFT_RESET in any
state. -/
theorem softResetResets : Obligations.SoftResetResets :=
  ⟨decode_encode .softReset, by decide, fun s =>
    ⟨⟨resetBlock s, exec_softReset s, statusWord_resetBlock s, rfl, rfl, rfl, rfl, rfl, rfl, rfl, rfl, rfl, rfl, rfl, rfl,
        Memory.written_nil, Memory.written_nil, Memory.written_nil, rfl, rfl⟩,
      regWrite_cmd_taken (decode_encode .softReset) (.inr rfl)⟩⟩

theorem exec_of_idle {s : State} (hidle : s.busy = false) (op : Op) : exec op.toInstr s = .next (accept op s) := by
  cases op <;> exact if_neg (ne_true_of_eq_false hidle)

/-- An idle block accepts the command of every CMD word but SOFT_RESET's (43_control_and_host.md R193). -/
theorem regWrite_cmd_accepts {s : State} (hidle : s.busy = false) (op : Op) :
    regWrite 0x00 (encode op.toInstr) s = .next (accept op (noAnswer s)) :=
  (regWrite_cmd_taken (decode_encode _) (.inl hidle)).trans (exec_of_idle (s := noAnswer s) hidle op)

/-- Settles O34: `regWrite_cmd_accepts` at each of the four words. -/
theorem commandAcceptance : Obligations.CommandAcceptance := by
  intro s hidle p hp
  simp only [List.mem_cons, List.not_mem_nil, or_false] at hp
  obtain rfl | rfl | rfl | rfl := hp
  · exact regWrite_cmd_accepts hidle .encode
  · exact regWrite_cmd_accepts hidle .checksum
  · exact regWrite_cmd_accepts hidle .validate
  · exact regWrite_cmd_accepts hidle .scan

/-- IN_LEN takes a value of at most N_IBUF whole: N_IBUF fits its 23 bits (10_state.md R25). -/
theorem exists_writeInLen {v : Word} {s : State} (h : v.toNat ≤ s.nIbuf) :
    ∃ n : BitVec 23, n.toNat = v.toNat ∧ writeInLen v s = setInLen n s := by
  have hlt : v.toNat < 2 ^ 23 := h.trans_lt s.param.isLt
  exact ⟨v.setWidth 23, by rw [BitVec.toNat_setWidth, Nat.mod_eq_of_lt hlt], if_pos h⟩

/-- CS_LEN takes a value of at most 255 whole (10_state.md R26). -/
theorem exists_writeCsLen {v : Word} (h : v.toNat ≤ 255) (s : State) :
    ∃ n : BitVec 8, n.toNat = v.toNat ∧ writeCsLen v s = setCsLen n s := by
  have hlt : v.toNat < 2 ^ 8 := Nat.lt_succ_of_le h
  exact ⟨v.setWidth 8, by rw [BitVec.toNat_setWidth, Nat.mod_eq_of_lt hlt], if_pos h⟩

/-- Settles O39: a busy block is O35's; in an idle one the offset picks the register, and the register's own rule says
what it takes. -/
theorem regWriteByOffset : Obligations.RegWriteByOffset := by
  intro s v
  refine ⟨fun hb off => regWrite_of_busy hb, fun _ hv => ?_, fun hidle => ?_⟩
  · exact regWrite_cmd_taken (hv ▸ decode_encode .softReset) (.inr rfl)
  have hw : ∀ r : Reg, r ≠ .cmd →
      hostAccess (.regWrite r.offset v) s = .next (writeIdleReg (some r) v (noAnswer s)) :=
    fun r hr => regWrite_of_idle hr hidle v
  have hstatus := hw .status (by decide)
  have hinLen := hw .inLen (by decide)
  have hcsLen := hw .csLen (by decide)
  refine ⟨fun i hi => regWrite_cmd_taken hi (.inl hidle), fun e he => ?_, fun h8 => hstatus.trans ?_,
    fun h8 => hstatus.trans ?_, fun hle => ?_, fun hlt => hinLen.trans ?_, fun hle => ?_, fun hlt => hcsLen.trans ?_,
    ?_, fun off hoff => (invalidOffsets.2 off s hoff).2 v⟩
  · have hidle' : (noAnswer s).busy = false := hidle
    exact (writeCmd_illegal_idle he hidle').trans (congrArg _ (illegalCommand_of_idle hidle'))
  · exact congrArg _ (if_pos h8)
  · exact congrArg _ (if_neg (ne_true_of_eq_false h8))
  · obtain ⟨n, hn, htaken⟩ := exists_writeInLen (s := noAnswer s) hle
    exact ⟨n, hn, hinLen.trans (congrArg _ htaken)⟩
  · exact congrArg _ (if_neg (Nat.not_le.2 hlt))
  · obtain ⟨n, hn, htaken⟩ := exists_writeCsLen hle (noAnswer s)
    exact ⟨n, hn, hcsLen.trans (congrArg _ htaken)⟩
  · exact congrArg _ (if_neg (Nat.not_le.2 hlt))
  · simp only [List.forall_mem_cons, List.not_mem_nil, false_imp_iff, implies_true, and_true]
    exact ⟨hw .csum (by decide), hw .outLen (by decide), hw .resCount (by decide), hw .param (by decide)⟩

/-- IbufWrite is dropped while BUSY = 1 and at an index at or beyond N_IBUF. -/
theorem ibufWrite_dropped {s : State} {i : Nat} (h : s.busy = true ∨ s.nIbuf ≤ i) (b : Byte) :
    ibufWrite i b s = .next (accessError (noAnswer s)) := by
  rw [ibufWrite]
  split
  next => rfl
  next hidle => exact if_pos (h.resolve_left hidle)

theorem ibufWrite_stores {s : State} {i : Nat} (hidle : s.busy = false) (hi : i < s.nIbuf) (b : Byte) :
    ibufWrite i b s = .next (storeIbuf i b (noAnswer s)) :=
  (if_neg (ne_true_of_eq_false hidle)).trans (if_neg (Nat.not_le.2 hi))

theorem read_storeIbuf_ibuf (i j : Nat) (b : Byte) (s : State) :
    Memory.read (w := 8) (storeIbuf i b s).ibuf j = if j = i then some b else Memory.read (w := 8) s.ibuf j :=
  Memory.read_write s.ibuf i j b

/-- Settles O40: the write is dropped or stores one byte, and a read after it is `read_storeIbuf_ibuf`. -/
theorem ibufWriteStores : Obligations.IbufWriteStores := by
  refine fun s i b => ⟨fun h => ibufWrite_dropped h b, fun hidle hi => ?_⟩
  have hread : Memory.read (w := 8) (storeIbuf i b (noAnswer s)).ibuf i = some b :=
    (read_storeIbuf_ibuf i i b _).trans (if_pos rfl)
  exact ⟨_, ibufWrite_stores hidle hi b, hread, Memory.written_iff.2 ⟨b, hread⟩,
    fun j hj => (read_storeIbuf_ibuf i j b _).trans (if_neg hj), rfl⟩

end Sys2Proof.Machine
end

section
/-! The engine's step (43_control_and_host.md R201): it ends the command, and its result depends only on the inputs. -/

namespace Sys2Proof.Machine

/-- The completion of a command ends with BUSY 0 and DONE 1. -/
theorem ExecNext.completed {i : Instr} {s t : State} (h : ExecNext i s t) (hb : s.busy = true) (hi : i ≠ .softReset) :
    t.busy = false ∧ t.done = true := by
  cases h with
  | accepted op idle => exact absurd hb (ne_true_of_eq_false idle)
  | tooLong => exact ⟨rfl, rfl⟩
  | encoded => exact ⟨rfl, rfl⟩
  | summed => exact ⟨rfl, rfl⟩
  | validated => exact ⟨rfl, rfl⟩
  | scanned => exact ⟨rfl, rfl⟩
  | reset => exact absurd rfl hi

theorem Op.toInstr_ne_softReset (op : Op) : op.toInstr ≠ .softReset := by
  cases op <;> decide

/-- A field that goes from `x` to `y` in one block and from `x'` to `y'` in another takes the same value in both or is
unchanged in both. -/
def SameOrKept {α : Type} (x y x' y' : α) : Prop := y' = y ∨ (y' = x' ∧ y = x)

/-- Two blocks that go from `s` to `t` and from `s'` to `t'` have the same outputs, as far as these changed at all. -/
def OutputsAlike (s t s' t' : State) : Prop :=
  SameOrKept s.csum t.csum s'.csum t'.csum ∧
  SameOrKept s.outLen t.outLen s'.outLen t'.outLen ∧
  SameOrKept s.resCount t.resCount s'.resCount t'.resCount ∧
  SameOrKept s.valid t.valid s'.valid t'.valid ∧
  SameOrKept s.err t.err s'.err t'.err ∧
  SameOrKept s.errCode t.errCode s'.errCode t'.errCode ∧
  (∀ a, SameOrKept (Memory.read (w := 8) s.obuf a) (Memory.read (w := 8) t.obuf a) (Memory.read (w := 8) s'.obuf a)
    (Memory.read (w := 8) t'.obuf a)) ∧
  (∀ a, SameOrKept (Memory.read s.rbuf a) (Memory.read t.rbuf a) (Memory.read s'.rbuf a) (Memory.read t'.rbuf a))

/-- Two outcomes, of steps from `s` and from `s'`: the same fault in both, or next states with the same outputs. -/
def EndAlike (s s' : State) (o o' : Host.Outcome State Fault Refusal) : Prop :=
  (∀ f, o = .fault f ↔ o' = .fault f) ∧ ∀ t, o = .next t → ∃ t', o' = .next t' ∧ OutputsAlike s t s' t'

theorem SameOrKept.same {α : Type} {x y x' : α} : SameOrKept x y x' y := .inl rfl

theorem SameOrKept.kept {α : Type} {x x' : α} : SameOrKept x x x' x' := .inr ⟨rfl, rfl⟩

/-- The same values written to two buffers: an entry of theirs reads the same in both, every other as before. -/
theorem sameOrKept_read_writeList {w : Nat} (m m' : Memory w) (a b : Nat) (vs : List (BitVec w)) :
    SameOrKept (Memory.read m b) (Memory.read (Memory.writeList m a vs) b) (Memory.read m' b)
      (Memory.read (Memory.writeList m' a vs) b) := by
  simp only [Memory.read_writeList]
  split
  · exact .same
  · exact .kept

section

variable {s s' : State}

theorem endAlike_next {t t' : State} (h : OutputsAlike s t s' t') : EndAlike s s' (.next t) (.next t') := by
  refine ⟨fun f => by simp, fun u hu => ?_⟩
  cases hu
  exact ⟨t', rfl, h⟩

theorem endAlike_fault (f : Fault) : EndAlike s s' (.fault f) (.fault f) :=
  ⟨fun _ => Iff.rfl, fun _ h => by cases h⟩

/-- Two completions over the same input slice end alike if their writes do. -/
theorem withInput_endAlike {k k' : List Byte → State} (hinput : inputBytes s' = inputBytes s)
    (h : ∀ p, OutputsAlike s (k p) s' (k' p)) : EndAlike s s' (withInput s k) (withInput s' k') := by
  rw [withInput, withInput, hinput]
  cases inputBytes s with
  | none => exact endAlike_fault _
  | some p => exact endAlike_next (h p)

/-- CSUM is the same in both blocks, for CS_LEN and the input are. -/
theorem completeChecksum_endAlike (hinput : inputBytes s' = inputBytes s) (hcsLen : s'.csLen = s.csLen) :
    EndAlike s s' (completeChecksum s) (completeChecksum s') :=
  withInput_endAlike hinput fun p => by
    rw [hcsLen]
    exact ⟨.same, .kept, .kept, .kept, .kept, .kept, fun _ => .kept, fun _ => .kept⟩

theorem completeValidate_endAlike (hinput : inputBytes s' = inputBytes s) :
    EndAlike s s' (completeValidate s) (completeValidate s') :=
  withInput_endAlike hinput fun _ => ⟨.kept, .kept, .kept, .same, .kept, .kept, fun _ => .kept, fun _ => .kept⟩

theorem completeScan_endAlike (hinput : inputBytes s' = inputBytes s) :
    EndAlike s s' (completeScan s) (completeScan s') :=
  withInput_endAlike hinput fun _ =>
    ⟨.kept, .kept, .same, .kept, .kept, .kept, fun _ => .kept, fun a => sameOrKept_read_writeList s.rbuf s'.rbuf 0 a _⟩

theorem completeEncode_endAlike (hinput : inputBytes s' = inputBytes s) (hinLen : s'.inLen = s.inLen) :
    EndAlike s s' (completeEncode s) (completeEncode s') := by
  rw [completeEncode, completeEncode, hinLen]
  split
  · exact endAlike_next ⟨.kept, .same, .kept, .kept, .same, .same, fun _ => .kept, fun _ => .kept⟩
  · exact withInput_endAlike hinput fun _ =>
      ⟨.same, .same, .kept, .kept, .kept, .kept, fun a => sameOrKept_read_writeList s.obuf s'.obuf 0 a _,
        fun _ => .kept⟩

/-- Two blocks with the same command in flight over the same inputs end alike. -/
theorem exec_endAlike (op : Op) (hb : s.busy = true) (hb' : s'.busy = true) (hinLen : s'.inLen = s.inLen)
    (hcsLen : s'.csLen = s.csLen) (hibuf : s'.ibuf = s.ibuf) :
    EndAlike s s' (exec op.toInstr s) (exec op.toInstr s') := by
  have hinput : inputBytes s' = inputBytes s := by rw [inputBytes, inputBytes, hibuf, hinLen]
  cases op with
  | encode =>
    simp only [Op.toInstr, exec_encode_of_busy hb, exec_encode_of_busy hb']
    exact completeEncode_endAlike hinput hinLen
  | checksum =>
    simp only [Op.toInstr, exec_checksum_of_busy hb, exec_checksum_of_busy hb']
    exact completeChecksum_endAlike hinput hcsLen
  | validate =>
    simp only [Op.toInstr, exec_validate_of_busy hb, exec_validate_of_busy hb']
    exact completeValidate_endAlike hinput
  | scan =>
    simp only [Op.toInstr, exec_scan_of_busy hb, exec_scan_of_busy hb']
    exact completeScan_endAlike hinput

/-- The engine's turn while BUSY = 1 is the completion of `pending` (60_exceptions.md R235). -/
theorem step_of_engine_busy (hb : s.busy = true) (hwho : nextAgent s = .engine) :
    step s = exec s.pending.toInstr (takeTurn s) := by
  rw [step, hwho]
  exact if_pos hb

end

/-- Settles O46: the engine's turn is the completion, which ends the command (`ExecNext.completed`) and whose result
depends on the inputs alone (`exec_endAlike`). -/
theorem engineStepCompletesPending : Obligations.EngineStepCompletesPending := by
  refine ⟨fun _ => step_of_engine_busy, fun s t hb hexec => ?_, fun s s' hb hb' hpending hinLen hcsLen hibuf => ?_⟩
  · exact (exec_next hexec).completed hb (Op.toInstr_ne_softReset _)
  · rw [hpending]
    exact exec_endAlike s.pending hb hb' hinLen hcsLen hibuf

end Sys2Proof.Machine
end

section
/-! AccessError (60_exceptions.md R225): the accesses that raise it, and the steps that clear AERR. -/

namespace Sys2Proof.Machine

/-! ### The invalid accesses set AERR and do nothing else -/

theorem Reg.offset_eq_zero_iff {r : Reg} : r.offset = 0x00 ↔ r = .cmd := by
  cases r <;> decide

/-- A write that the register's own rule drops is dropped whatever BUSY is. -/
theorem regWrite_dropped {r : Reg} {v : Word} {s : State} (hr : r ≠ .cmd)
    (h : writeIdleReg (some r) v (noAnswer s) = accessError (noAnswer s)) :
    regWrite r.offset v s = .next (accessError (noAnswer s)) := by
  cases hb : s.busy with
  | true => exact regWrite_of_busy hb fun hcmd => hr (Reg.offset_eq_zero_iff.1 hcmd.1)
  | false => exact (regWrite_of_idle hr hb v).trans (congrArg _ h)

theorem regWrite_of_readOnly {off : Nat} (h : off ∈ [0x10, 0x14, 0x18, 0x1C]) (v : Word) (s : State) :
    regWrite off v s = .next (accessError (noAnswer s)) := by
  simp only [List.mem_cons, List.not_mem_nil, or_false] at h
  obtain rfl | rfl | rfl | rfl := h
  · exact regWrite_dropped (r := .csum) (by decide) rfl
  · exact regWrite_dropped (r := .outLen) (by decide) rfl
  · exact regWrite_dropped (r := .resCount) (by decide) rfl
  · exact regWrite_dropped (r := .param) (by decide) rfl

theorem regWrite_of_accessInvalid {off : Nat} {v : Word} {s : State} (h : AccessInvalid s (.regWrite off v)) :
    regWrite off v s = .next (accessError (noAnswer s)) := by
  obtain ⟨hb, hv⟩ | hnone | hro | ⟨rfl, hgt⟩ | ⟨rfl, hgt⟩ := h
  · exact regWrite_of_busy hb hv
  · exact regWrite_of_ofOffset_eq_none hnone v s
  · exact regWrite_of_readOnly hro v s
  · exact regWrite_dropped (r := .inLen) (by decide) (if_neg (Nat.not_le.2 hgt))
  · exact regWrite_dropped (r := .csLen) (by decide) (if_neg (Nat.not_le.2 hgt))

theorem hostAccess_of_accessInvalid {a : HostAccess} {s : State} (h : AccessInvalid s a) :
    ∃ r, hostAccess a s = .next { s with aerr := true, reply := r } := by
  cases a with
  | regRead off => exact ⟨_, regRead_of_ofOffset_eq_none h s⟩
  | regWrite off v => exact ⟨_, regWrite_of_accessInvalid h⟩
  | ibufWrite i b => exact ⟨_, ibufWrite_dropped h b⟩
  | ibufRead i => exact ⟨_, if_pos h⟩
  | obufRead i => exact ⟨_, if_pos h⟩
  | rbufRead i => exact ⟨_, if_pos h⟩

/-! ### No other access sets AERR -/

/-- No command touches AERR but SOFT_RESET, which clears it. -/
theorem ExecNext.aerr_cases {i : Instr} {s t : State} (h : ExecNext i s t) :
    t.aerr = s.aerr ∨ (i = .softReset ∧ t.aerr = false) := by
  cases h with
  | reset => exact .inr ⟨rfl, rfl⟩
  | _ => exact .inl rfl

/-- A CMD write that is not dropped runs a command or enters ILLEGAL_OP; neither sets AERR. -/
theorem writeCmd_aerr_eq_false {v : Word} {s t : State} (hvalid : s.busy = false ∨ v = encode .softReset)
    (h : writeCmd v s = .next t) (hs : s.aerr = false) : t.aerr = false := by
  cases hd : decode v with
  | ok i =>
    have htaken : s.busy = false ∨ i = .softReset := hvalid.imp_right fun hv => by
      cases (decode_eq_ok_iff.2 hv).symm.trans hd
      rfl
    rw [writeCmd_taken hd htaken] at h
    obtain hkept | ⟨-, hcleared⟩ := (exec_next h).aerr_cases
    · exact hkept.trans hs
    · exact hcleared
  | error e =>
    have hidle : s.busy = false := hvalid.resolve_right fun hv => by
      cases (decode_eq_ok_iff.2 hv).symm.trans hd
    rw [writeCmd_illegal_idle hd hidle] at h
    cases h
    exact hs

theorem writeStatus_aerr (v : Word) (s : State) :
    (writeStatus v s).aerr = if v.getLsbD 8 = true then false else s.aerr :=
  apply_ite State.aerr _ _ _

/-- A valid register write is a CMD write that is not dropped, or an idle block's write to STATUS, IN_LEN or CS_LEN of a
value that the register takes. -/
theorem regWrite_aerr_eq_false {off : Nat} {v : Word} {s t : State} (hvalid : ¬ AccessInvalid s (.regWrite off v))
    (h : regWrite off v s = .next t) (hs : s.aerr = false) : t.aerr = false := by
  simp only [AccessInvalid, not_or] at hvalid
  obtain ⟨hbusy, hreg, hro, hinLen, hcsLen⟩ := hvalid
  obtain ⟨r, hr⟩ := Option.ne_none_iff_exists'.1 hreg
  obtain rfl := Reg.ofOffset_eq_some_iff.1 hr
  have hfree : s.busy = false ∨ (r = .cmd ∧ v = encode .softReset) := by
    by_contra! hdropped
    obtain ⟨hb, hne⟩ := hdropped
    exact hbusy ⟨Bool.eq_true_of_not_eq_false hb, fun hsrst => hne (Reg.offset_eq_zero_iff.1 hsrst.1) hsrst.2⟩
  by_cases hc : r = .cmd
  · subst hc
    exact writeCmd_aerr_eq_false (s := noAnswer s) (hfree.imp_right And.right) h hs
  · have hidle : s.busy = false := hfree.resolve_right fun hsrst => hc hsrst.1
    rw [regWrite_of_idle hc hidle] at h
    cases h
    cases r with
    | cmd => exact absurd rfl hc
    | status =>
      rw [writeIdleReg, writeStatus_aerr]
      split
      · rfl
      · exact hs
    | inLen =>
      obtain ⟨n, -, hn⟩ := exists_writeInLen (s := noAnswer s) (Nat.not_lt.1 fun hgt => hinLen ⟨rfl, hgt⟩)
      rw [writeIdleReg, hn]
      exact hs
    | csLen =>
      obtain ⟨n, -, hn⟩ := exists_writeCsLen (Nat.not_lt.1 fun hgt => hcsLen ⟨rfl, hgt⟩) (noAnswer s)
      rw [writeIdleReg, hn]
      exact hs
    | _ => exact absurd (by decide) hro

theorem ibufWrite_aerr_eq_false {i : Nat} {b : Byte} {s t : State} (hvalid : ¬ AccessInvalid s (.ibufWrite i b))
    (h : ibufWrite i b s = .next t) (hs : s.aerr = false) : t.aerr = false := by
  obtain ⟨hb, hi⟩ := not_or.1 hvalid
  rw [ibufWrite_stores (Bool.eq_false_of_not_eq_true hb) (Nat.lt_of_not_le hi)] at h
  cases h
  exact hs

/-- AERR rises by an invalid access or by a dropped write. -/
theorem HostNext.invalid_or_write_of_aerr_rises {a : HostAccess} {s t : State} (h : HostNext a s t)
    (hs : s.aerr = false) (ht : t.aerr = true) :
    AccessInvalid s a ∨ (∃ off v, a = .regWrite off v) ∨ ∃ i b, a = .ibufWrite i b := by
  cases h with
  | invalid a zero hinvalid =>
    left
    obtain ⟨off, rfl, hoff⟩ | ⟨i, rfl, hi⟩ | ⟨i, rfl, hi⟩ | ⟨i, rfl, hi⟩ := hinvalid
    · exact hoff
    · exact hi
    · exact hi
    · exact hi
  | dropped a hwrite => exact .inr hwrite
  | command | illegal | status | inLen | csLen => exact .inr (.inl ⟨_, _, rfl⟩)
  | ibuf => exact .inr (.inr ⟨_, _, rfl⟩)
  | _ => cases hs.symm.trans ht

theorem hostAccess_aerr_eq_false {a : HostAccess} {s t : State} (hvalid : ¬ AccessInvalid s a)
    (h : hostAccess a s = .next t) (hs : s.aerr = false) : t.aerr = false := by
  by_contra ht
  obtain hinvalid | ⟨off, v, rfl⟩ | ⟨i, b, rfl⟩ :=
    (hostAccess_next h).invalid_or_write_of_aerr_rises hs (Bool.eq_true_of_not_eq_false ht)
  · exact hvalid hinvalid
  · exact ht (regWrite_aerr_eq_false hvalid h hs)
  · exact ht (ibufWrite_aerr_eq_false hvalid h hs)

/-! ### AERR is sticky -/

/-- AERR falls only by SOFT_RESET or by a STATUS write with bit 8 = 1 (10_state.md R24). -/
theorem HostNext.clearsAerr_of_aerr_falls {a : HostAccess} {s t : State} (h : HostNext a s t) (hs : s.aerr = true)
    (ht : t.aerr = false) : clearsAerr s a = true := by
  cases h with
  | command v i dec taken run =>
    obtain hkept | ⟨rfl, -⟩ := run.aerr_cases
    · cases (hkept.trans hs).symm.trans ht
    · simp [clearsAerr, Reg.offset, decode_eq_ok_iff.1 dec]
  | status v idle =>
    have h8 : v.getLsbD 8 = true := by
      by_contra h8
      rw [writeStatus_aerr, if_neg h8] at ht
      cases hs.symm.trans ht
    simp [clearsAerr, Reg.offset, idle, h8]
  | invalid | dropped => cases ht
  | _ => cases hs.symm.trans ht

/-- A step that changes AERR is a host access. -/
theorem StepNext.aerr_eq_or_access {s t : State} (h : StepNext s t) :
    t.aerr = s.aerr ∨ (nextAgent s = .host ∧ ∃ a rest, s.script = .access a :: rest ∧
      HostNext a (setScript rest (takeTurn s)) t) := by
  cases h with
  | engine who busy run => exact .inl (run.aerr_cases.resolve_right fun hreset => Op.toInstr_ne_softReset _ hreset.1)
  | access who a rest head run => exact .inr ⟨who, a, rest, head, run⟩
  | _ => exact .inl rfl

/-- `clearsAerr` reads BUSY alone. -/
theorem clearsAerr_eq_of_busy_eq {s t : State} (h : t.busy = s.busy) (a : HostAccess) :
    clearsAerr t a = clearsAerr s a := by
  cases a with
  | regWrite off v => rw [clearsAerr, clearsAerr, h]
  | _ => rfl

/-- Settles O52: `hostAccess_of_accessInvalid` and `hostAccess_aerr_eq_false` are the two directions; a step changes
AERR only as a host access (`StepNext.aerr_eq_or_access`), which `HostNext.clearsAerr_of_aerr_falls` names if it falls. -/
theorem accessErrors : Obligations.AccessErrors := by
  refine ⟨fun _ => Reg.ofOffset_eq_none_iff, fun _ _ => hostAccess_of_accessInvalid,
    fun _ _ _ => hostAccess_aerr_eq_false, fun s t hstep => ?_⟩
  obtain hkept | ⟨hwho, a, rest, hhead, hrun⟩ := (step_next hstep).aerr_eq_or_access
  · rw [hkept]
    exact ⟨fun hset hclear => (nomatch hset.symm.trans hclear), fun hclear hset => (nomatch hclear.symm.trans hset)⟩
  · refine ⟨fun hset hclear => ⟨hwho, a, rest, hhead, ?_⟩, fun _ _ => hwho⟩
    exact (clearsAerr_eq_of_busy_eq rfl a).trans (hrun.clearsAerr_of_aerr_falls hset hclear)

end Sys2Proof.Machine
end

section
/-! A buffer that is exactly one frame (40_frame_encoder.md section 4, 41_frame_decoder.md section 2): its scan, and its
`validate`. -/

namespace Sys2Proof.Machine

/-- A slice that starts with 0x02 and is as long as its declared frame scans to one entry, tagged by its last byte. -/
theorem scan_of_exact_frame {f : List Byte} {len e : Byte} (hstart : f[0]? = some 0x02#8) (hlen : f[1]? = some len)
    (hcheck : f[2 + len.toNat]? = some e) (hexact : f.length = len.toNat + 3) :
    scan f = [.frame (if e = checksum len ((f.drop 2).take len.toNat) then .ok else .bad) 0 len] := by
  have hcheck' : f[0 + 2 + len.toNat]? = some e := by rwa [Nat.zero_add]
  rw [scan, scanFrom_of_frame hstart hlen hcheck', scanFrom_of_le (by omega)]

theorem encodeFrame_eq_some_iff {p f : List Byte} :
    encodeFrame p = some f ↔ p.length ≤ 255 ∧ f = wireBytes (frameOf p) := by
  obtain hle | hgt := le_or_gt p.length 255
  · simp [encodeFrame_of_le hle, hle, eq_comm]
  · simp [encodeFrame_of_tooLong hgt, Nat.not_le.2 hgt]

section

variable {p : List Byte} (h : p.length ≤ 255)

include h

/-- The length byte has room for the length of every payload (40_frame_encoder.md R124). -/
theorem frameOf_length_toNat : (frameOf p).length.toNat = p.length := by
  rw [frameOf, BitVec.toNat_ofNat, Nat.mod_eq_of_lt (by omega)]

theorem frameOf_complete : Frame.complete (frameOf p) = true :=
  Bool.and_eq_true_iff.2 ⟨rfl, beq_iff_eq.2 (frameOf_length_toNat h).symm⟩

/-- The payload stands behind the two header bytes of its frame. -/
theorem payload_of_wireBytes_frameOf :
    ((wireBytes (frameOf p)).drop 2).take (frameOf p).length.toNat = p := by
  rw [frameOf_length_toNat h]
  exact List.take_left

/-- The checksum byte stands behind the payload in its frame. -/
theorem checksumByte_of_wireBytes_frameOf :
    (wireBytes (frameOf p))[2 + (frameOf p).length.toNat]? = some (frameOf p).checksum := by
  rw [frameOf_length_toNat h, Nat.add_comm]
  exact List.getElem?_concat_length

/-- A buffer that holds the bytes of an encoded frame reads as that frame. -/
theorem frameAt_of_holds_frameOf {m : Memory 8}
    (hm : ∀ i < (wireBytes (frameOf p)).length, Memory.read m i = (wireBytes (frameOf p))[i]?) :
    frameAt m 0 (frameOf p).length = some (frameOf p) := by
  rw [frameAt_of_holds hm rfl rfl (by rw [Nat.zero_add]; exact checksumByte_of_wireBytes_frameOf h),
    payload_of_wireBytes_frameOf h]
  rfl

end

/-- Settles O29: the encoded frame is exactly one frame, its checksum byte is the checksum of its payload, and a buffer
that holds its bytes reads as it. -/
theorem scanOfEncodedFrame : Obligations.ScanOfEncodedFrame := by
  intro p f hf
  obtain ⟨hle, rfl⟩ := encodeFrame_eq_some_iff.1 hf
  have hlen := frameOf_length_toNat hle
  constructor
  · rw [scan_of_exact_frame rfl rfl (checksumByte_of_wireBytes_frameOf hle) (by simp [hlen]),
      payload_of_wireBytes_frameOf hle]
    exact congrArg (fun tag => [Entry.frame tag 0 (frameOf p).length]) (if_pos rfl)
  · intro m hm
    have hview := (decodeView_desc_frame (tag := .ok) (by decide)).trans (frameAt_of_holds_frameOf hle hm)
    exact ⟨frameOf p, hview, rfl, hlen, rfl, rfl, frameOf_complete hle⟩

/-- Settles O21: the scanner's tag and `validate` test the same checksum byte; 3 bytes are below `validate`'s floor. -/
theorem validateAgreesWithScanTag : Obligations.ValidateAgreesWithScanTag := by
  intro f len hstart hlen hexact
  have hcheck := getElem?_of_lt (f := f) (i := 2 + len.toNat) (by omega)
  refine ⟨_, scan_of_exact_frame hstart hlen hcheck hexact, fun hfloor => ?_, fun hthree => ?_⟩
  · rw [ite_tag_eq_ok_iff, validate_iff_of_fits hlen (by omega), hcheck, Option.some_inj]
    simp [hfloor, hstart]
  · have hzero : len = 0#8 := BitVec.eq_of_toNat_eq (by simp; omega)
    subst hzero
    have hempty : checksum 0#8 [] = 0x00#8 := by decide
    refine ⟨validate_of_length_le hthree.le, ?_⟩
    rw [ite_tag_eq_ok_iff, show f[2]? = some _ from hcheck, Option.some_inj]
    simp [hempty]

end Sys2Proof.Machine
end

section
/-! Everything a step does to the block, said once: each step is the completion of `pending`, one of the effective host
writes, or leaves the block as it is but for AERR (43_control_and_host.md sections 1 to 5). -/

namespace Sys2Proof.Machine

/-- `s` with a host write taken off the script and the turn off the schedule, before the write's effect. -/
abbrev afterWrite (rest : List ScriptItem) (s : State) : State :=
  { s with script := rest, schedule := s.schedule.tail, reply := none }

/-- The block of `t` is that of `s` but for AERR: of the rest only the model's own fields may differ. -/
structure SameBlock (s t : State) : Prop where
  busy : t.busy = s.busy
  done : t.done = s.done
  err : t.err = s.err
  valid : t.valid = s.valid
  errCode : t.errCode = s.errCode
  inLen : t.inLen = s.inLen
  csLen : t.csLen = s.csLen
  csum : t.csum = s.csum
  outLen : t.outLen = s.outLen
  resCount : t.resCount = s.resCount
  param : t.param = s.param
  pending : t.pending = s.pending
  ibuf : t.ibuf = s.ibuf
  obuf : t.obuf = s.obuf
  rbuf : t.rbuf = s.rbuf

theorem sameBlock_with (s : State) (aerr : Bool) (script : List ScriptItem) (schedule : List Agent)
    (reply : Option Reply) (draws : Nat) :
    SameBlock s
      { s with aerr := aerr, script := script, schedule := schedule, reply := reply, draws := draws } := by
  constructor <;> rfl

theorem SameBlock.trans {s t u : State} (h : SameBlock s t) (h' : SameBlock t u) : SameBlock s u where
  busy := h'.busy.trans h.busy
  done := h'.done.trans h.done
  err := h'.err.trans h.err
  valid := h'.valid.trans h.valid
  errCode := h'.errCode.trans h.errCode
  inLen := h'.inLen.trans h.inLen
  csLen := h'.csLen.trans h.csLen
  csum := h'.csum.trans h.csum
  outLen := h'.outLen.trans h.outLen
  resCount := h'.resCount.trans h.resCount
  param := h'.param.trans h.param
  pending := h'.pending.trans h.pending
  ibuf := h'.ibuf.trans h.ibuf
  obuf := h'.obuf.trans h.obuf
  rbuf := h'.rbuf.trans h.rbuf

/-- Everything a step does to the block. -/
inductive StepEffect : State → State → Prop where
  | completed {s t : State} (who : nextAgent s = .engine) (busy : s.busy = true)
      (run : ExecNext s.pending.toInstr (takeTurn s) t) : StepEffect s t
  | accepted {s : State} (who : nextAgent s = .host) (op : Op) (rest : List ScriptItem)
      (head : s.script = .access (.regWrite 0x00 (encode op.toInstr)) :: rest) (idle : s.busy = false) :
      StepEffect s (accept op (afterWrite rest s))
  | reset {s : State} (who : nextAgent s = .host) (rest : List ScriptItem)
      (head : s.script = .access (.regWrite 0x00 (encode .softReset)) :: rest) :
      StepEffect s (resetBlock (afterWrite rest s))
  | illegal {s : State} (who : nextAgent s = .host) (v : Word) (e : Reject) (rest : List ScriptItem)
      (head : s.script = .access (.regWrite 0x00 v) :: rest) (dec : decode v = .error e) (idle : s.busy = false) :
      StepEffect s (illegalCommand (afterWrite rest s))
  | inLen {s : State} (who : nextAgent s = .host) (v : Word) (rest : List ScriptItem)
      (head : s.script = .access (.regWrite 0x08 v) :: rest) (idle : s.busy = false) (le : v.toNat ≤ s.nIbuf) :
      StepEffect s (setInLen (v.setWidth 23) (afterWrite rest s))
  | csLen {s : State} (who : nextAgent s = .host) (v : Word) (rest : List ScriptItem)
      (head : s.script = .access (.regWrite 0x0C v) :: rest) (idle : s.busy = false) :
      StepEffect s (setCsLen (v.setWidth 8) (afterWrite rest s))
  | ibuf {s : State} (who : nextAgent s = .host) (i : Nat) (b : Byte) (rest : List ScriptItem)
      (head : s.script = .access (.ibufWrite i b) :: rest) (idle : s.busy = false) (lt : i < s.nIbuf) :
      StepEffect s (storeIbuf i b (afterWrite rest s))
  | quiet {s t : State} (same : SameBlock s t) : StepEffect s t

theorem Op.toInstr_inj {a b : Op} : a.toInstr = b.toInstr ↔ a = b := by
  cases a <;> cases b <;> decide

/-- A command taken from CMD is accepted by an idle block, or is SOFT_RESET. -/
theorem ExecNext.accepted_or_reset {i : Instr} {s t : State} (h : ExecNext i s t)
    (taken : s.busy = false ∨ i = .softReset) :
    (s.busy = false ∧ ∃ op : Op, i = op.toInstr ∧ t = accept op s) ∨ (i = .softReset ∧ t = resetBlock s) := by
  have idle_of_ne (hi : i ≠ .softReset) : s.busy = false := taken.resolve_right hi
  cases h with
  | accepted op idle => exact .inl ⟨idle, op, rfl, rfl⟩
  | reset => exact .inr ⟨rfl, rfl⟩
  | tooLong busy | encoded _ busy | summed _ busy | validated _ busy | scanned _ busy =>
    exact absurd (idle_of_ne (by decide)) (ne_false_of_eq_true busy)

theorem writeStatus_eq (v : Word) (s : State) :
    writeStatus v s = { s with aerr := if v.getLsbD 8 then false else s.aerr } := by
  rw [writeStatus]
  split <;> rfl

/-- What a host access does to the block. -/
theorem HostNext.effect {a : HostAccess} {s t : State} {rest : List ScriptItem}
    (h : HostNext a (setScript rest (takeTurn s)) t)
    (who : nextAgent s = .host) (head : s.script = .access a :: rest) : StepEffect s t := by
  have hturn : SameBlock s (setScript rest (takeTurn s)) := sameBlock_with s _ _ _ _ _
  cases h with
  | command v i dec taken run =>
    obtain ⟨idle, op, rfl, rfl⟩ | ⟨rfl, rfl⟩ := run.accepted_or_reset taken
    · exact .accepted who op rest (decode_eq_ok_iff.1 dec ▸ head) idle
    · exact .reset who rest (decode_eq_ok_iff.1 dec ▸ head)
  | illegal v e dec idle => exact .illegal who v e rest head dec idle
  | inLen v idle le => exact .inLen who v rest head idle le
  | csLen v idle le => exact .csLen who v rest head idle
  | ibuf i b idle lt => exact .ibuf who i b rest head idle lt
  | status v idle => exact .quiet (hturn.trans (writeStatus_eq v _ ▸ sameBlock_with _ _ _ _ _ _))
  | _ => exact .quiet (hturn.trans (sameBlock_with _ _ _ _ _ _))

/-- A step answers a next state only in one of the ways of `StepEffect`. -/
theorem step_effect {s t : State} (h : step s = .next t) : StepEffect s t := by
  cases step_next h with
  | engine who busy run => exact .completed who busy run
  | access who a rest head run => exact run.effect who head
  | engineIdle | wait | ended => exact .quiet (sameBlock_with s _ _ _ _ _)

/-! ### What each command keeps and what its completion gives -/

section

variable {i : Instr} {s t : State}

theorem ExecNext.param_eq (h : ExecNext i s t) : t.param = s.param := by
  cases h <;> rfl

/-- Only SOFT_RESET writes an input. -/
theorem ExecNext.inputs_eq (h : ExecNext i s t) (hi : i ≠ .softReset) :
    t.ibuf = s.ibuf ∧ t.inLen = s.inLen ∧ t.csLen = s.csLen := by
  cases h with
  | reset => exact absurd rfl hi
  | _ => exact ⟨rfl, rfl, rfl⟩

/-- Only ENCODE and SOFT_RESET write OBUF and OUT_LEN. -/
theorem ExecNext.encode_or_obuf_eq (h : ExecNext i s t) (hi : i ≠ .softReset) :
    (t.obuf = s.obuf ∧ t.outLen = s.outLen) ∨ i = .encode := by
  cases h with
  | reset => exact absurd rfl hi
  | tooLong | encoded => exact .inr rfl
  | _ => exact .inl ⟨rfl, rfl⟩

/-- Only SCAN and SOFT_RESET write RBUF and RES_COUNT. -/
theorem ExecNext.scan_or_rbuf_eq (h : ExecNext i s t) (hi : i ≠ .softReset) :
    (t.rbuf = s.rbuf ∧ t.resCount = s.resCount) ∨ i = .scan := by
  cases h with
  | reset => exact absurd rfl hi
  | scanned => exact .inr rfl
  | _ => exact .inl ⟨rfl, rfl⟩

/-- Only ENCODE, CHECKSUM and SOFT_RESET write CSUM. -/
theorem ExecNext.encode_or_checksum_or_csum_eq (h : ExecNext i s t) (hi : i ≠ .softReset) :
    t.csum = s.csum ∨ i = .encode ∨ i = .checksum := by
  cases h with
  | reset => exact absurd rfl hi
  | encoded => exact .inr (.inl rfl)
  | summed => exact .inr (.inr rfl)
  | _ => exact .inl rfl

/-- ERR rises by an over-long ENCODE alone (60_exceptions.md section 2). -/
theorem ExecNext.tooLong_of_err_rises (h : ExecNext i s t) (hs : s.err = false) (ht : t.err = true) :
    i = .encode ∧ 255 < s.inLen.toNat ∧ t = raiseError invalidPayloadSize (setOutLen 0#9 s) := by
  cases h with
  | tooLong _ len => exact ⟨rfl, len, rfl⟩
  | accepted | reset => cases ht
  | _ => cases hs.symm.trans ht

/-- No command makes a reserved ERRCODE (60_exceptions.md R220). -/
theorem ExecNext.errCode_le (h : ExecNext i s t) (hs : s.errCode.toNat ≤ 2) : t.errCode.toNat ≤ 2 := by
  cases h with
  | accepted | reset => exact Nat.zero_le _
  | tooLong => exact Nat.le_of_lt Nat.one_lt_two
  | _ => exact hs

end

end Sys2Proof.Machine
end

section
/-! One writer for each part of the block, and the flags that rise and fall (10_state.md section 3, 60_exceptions.md
section 2): what `StepEffect` says of single fields. -/

namespace Sys2Proof.Machine

theorem isSoftReset_encode : isSoftReset (.regWrite 0x00 (encode .softReset)) = true := by decide

/-- Settles O49: no command, no effective host write and no quiet step touches PARAM. -/
theorem paramIsConstant : Obligations.ParamIsConstant := by
  intro s t h
  cases step_effect h with
  | completed _ _ run => exact run.param_eq
  | quiet same => exact same.param
  | _ => rfl

/-- Settles O50: the commands keep the inputs (`ExecNext.inputs_eq`); each of the three host writes changes its own. -/
theorem inputsHaveOneWriter : Obligations.InputsHaveOneWriter := by
  intro s t h
  cases step_effect h with
  | completed _ _ run => exact .inl (run.inputs_eq (Op.toInstr_ne_softReset _))
  | quiet same => exact .inl ⟨same.ibuf, same.inLen, same.csLen⟩
  | accepted | illegal => exact .inl ⟨rfl, rfl, rfl⟩
  | reset who rest head => exact .inr ⟨who, _, rest, head, .inl isSoftReset_encode⟩
  | ibuf who i b rest head idle => exact .inr ⟨who, _, rest, head, .inr (.inl ⟨idle, ⟨i, b, rfl⟩, rfl, rfl⟩)⟩
  | inLen who v rest head idle => exact .inr ⟨who, _, rest, head, .inr (.inr (.inl ⟨idle, ⟨v, rfl⟩, rfl, rfl⟩))⟩
  | csLen who v rest head idle => exact .inr ⟨who, _, rest, head, .inr (.inr (.inr ⟨idle, ⟨v, rfl⟩, rfl, rfl⟩))⟩

/-- Settles O51: outside a SOFT_RESET only a completion writes outputs, and each command its own. -/
theorem outputsHaveOneWriter : Obligations.OutputsHaveOneWriter := by
  intro s t h
  cases step_effect h with
  | completed who busy run =>
    have hi := Op.toInstr_ne_softReset s.pending
    have of_toInstr {op : Op} (hop : s.pending.toInstr = op.toInstr) : s.pending = op := Op.toInstr_inj.1 hop
    refine .inr ⟨?_, ?_, ?_⟩
    · exact (run.encode_or_obuf_eq hi).imp_right fun he => ⟨who, busy, of_toInstr (op := .encode) he⟩
    · exact (run.scan_or_rbuf_eq hi).imp_right fun hs => ⟨who, busy, of_toInstr (op := .scan) hs⟩
    · exact (run.encode_or_checksum_or_csum_eq hi).imp_right fun hec =>
        ⟨who, busy, hec.imp (of_toInstr (op := .encode)) (of_toInstr (op := .checksum))⟩
  | reset who rest head => exact .inl ⟨who, _, rest, head, isSoftReset_encode⟩
  | quiet same =>
    exact .inr ⟨.inl ⟨same.obuf, same.outLen⟩,
      .inl ⟨same.rbuf, same.resCount⟩, .inl same.csum⟩
  | _ => exact .inr ⟨.inl (by simp), .inl (by simp), .inl (by simp)⟩

/-- Settles O53: of a completion only the over-long ENCODE's raises ERR, of a host access only an illegal CMD word. -/
theorem errorEntry : Obligations.ErrorEntry := by
  intro s t h hs ht
  cases step_effect h with
  | completed who busy run =>
    obtain ⟨hencode, hlen, rfl⟩ := run.tooLong_of_err_rises hs ht
    exact .inl ⟨who, busy, (Op.toInstr_inj (b := .encode)).1 hencode, hlen, rfl⟩
  | illegal who v e rest head dec idle =>
    exact .inr ⟨who, idle, v, e, rest, head, dec, illegalCommand_of_idle (s := afterWrite rest s) idle⟩
  | accepted | reset => cases ht
  | quiet same => cases hs.symm.trans (same.err.symm.trans ht)
  | _ => cases hs.symm.trans ht

/-- Settles O54: only an acceptance makes an idle block busy, and only a completion or a SOFT_RESET a busy one idle. -/
theorem busyFollowsTheCommand : Obligations.BusyFollowsTheCommand := by
  intro s t h
  cases step_effect h with
  | completed who busy run =>
    obtain ⟨-, hdone⟩ := run.completed busy (Op.toInstr_ne_softReset _)
    exact ⟨fun hidle => (nomatch busy.symm.trans hidle), fun _ _ => .inl ⟨who, hdone⟩⟩
  | accepted who op rest head idle =>
    exact ⟨fun _ _ => ⟨who, _, rest, op.toInstr, head, decode_encode _, rfl, rfl, rfl, rfl, rfl⟩,
      fun hb => (nomatch hb.symm.trans idle)⟩
  | reset who rest head =>
    exact ⟨fun _ hb => (nomatch hb), fun _ _ => .inr ⟨who, _, rest, head, isSoftReset_encode⟩⟩
  | illegal _ _ _ _ _ _ idle => exact ⟨fun _ hb => (nomatch hb), fun hb => (nomatch hb.symm.trans idle)⟩
  | quiet same =>
    have hbusy : t.busy = s.busy := same.busy
    rw [hbusy]
    exact ⟨fun hidle hb => (nomatch hidle.symm.trans hb), fun hb hidle => (nomatch hb.symm.trans hidle)⟩
  | inLen | csLen | ibuf =>
    exact ⟨fun hidle hb => (nomatch hidle.symm.trans hb), fun hb hidle => (nomatch hb.symm.trans hidle)⟩

/-- Settles O38: the ERRCODEs that steps write are 0, 1 and 2, and a STATUS read tests for the others. -/
theorem reservedErrCodeStops : Obligations.ReservedErrCodeStops := by
  refine ⟨fun s t h hs => ?_, fun s hs => ?_⟩
  · cases step_effect h with
    | completed _ _ run => exact run.errCode_le hs
    | accepted | reset => exact Nat.zero_le _
    | illegal => exact Nat.le_refl 2
    | quiet same => exact same.errCode ▸ hs
    | _ => exact hs
  · exact (regRead_status s).trans (if_pos (decide_eq_true hs))

end Sys2Proof.Machine
end

section
/-! The invariant of the block's states: it holds after reset and every step keeps it (10_state.md section 3,
20_memory.md section 1, 30_encoding.md section 4, 60_exceptions.md section 1). -/

namespace Sys2Proof.Machine

/-! ### The invariant over the state's operations -/

/-- Buffers that list nothing meet the invariant whatever N_IBUF is. -/
theorem State.init_inv {n : BitVec 23} (hlo : 258 ≤ n.toNat) (hhi : n.toNat ≤ 2 ^ 22) (p : Op) :
    (State.init n p).Inv where
  param := ⟨hlo, hhi⟩
  lengths := ⟨Nat.zero_le _, .inl rfl, Nat.zero_le _⟩
  status := by simp [State.StatusOk, State.init]
  buffers := ⟨⟨Memory.nil_wf, by simp [State.init]⟩, ⟨Memory.nil_wf, by simp [State.init]⟩,
    ⟨Memory.nil_wf, by simp [State.init]⟩⟩
  results := by simp [State.ResultsOk, State.init]

theorem Config.nIbuf_ge : 258 ≤ Config.nIbuf := Nat.le_add_right _ _

/-- Settles O56: the reset state is `State.init` of a legal N_IBUF, with BUSY 0. -/
theorem resetMeetsInvariant : Obligations.ResetMeetsInvariant :=
  have hn : (BitVec.ofNat 23 Config.nIbuf).toNat = Config.nIbuf := State.reset_nIbuf
  ⟨State.init_inv (Config.nIbuf_ge.trans_eq hn.symm) (hn.trans_le Config.nIbuf_le) _, fun hb => (nomatch hb)⟩

section

variable {s t : State} (h : s.Inv)

include h

/-- The invariant reads the block alone, and of it not AERR. -/
theorem State.Inv.of_sameBlock (same : SameBlock s t) : t.Inv where
  param := by simpa only [State.ParamOk, nIbuf_eq, same.param] using h.param
  lengths := by
    simpa only [State.LengthsOk, nIbuf_eq, same.param, same.inLen, same.outLen, same.resCount] using h.lengths
  status := by
    simpa only [State.StatusOk, same.errCode, same.err, same.done, same.valid, same.busy] using h.status
  buffers := by simpa only [State.BuffersOk, nIbuf_eq, same.param, same.ibuf, same.obuf, same.rbuf] using h.buffers
  results := by
    simpa only [State.ResultsOk, same.outLen, same.resCount, same.obuf, same.rbuf] using h.results

theorem resetBlock_inv : (resetBlock s).Inv :=
  (State.init_inv h.param.1 h.param.2 (Config.freePending s.draws)).of_sameBlock (sameBlock_with _ _ _ _ _ _)

theorem accept_inv (op : Op) : (accept op s).Inv :=
  ⟨h.param, h.lengths, by simp [State.StatusOk], h.buffers, h.results⟩

theorem complete_inv : (complete s).Inv := by
  obtain ⟨hcode, herr, -, hvalid, -⟩ := h.status
  exact ⟨h.param, h.lengths, ⟨hcode, herr, fun _ => rfl, fun hv => ⟨rfl, (hvalid hv).2⟩, fun hb => (nomatch hb)⟩,
    h.buffers, h.results⟩

/-- VALIDATE's result stands with DONE; its command was in flight, so ERR is 0. -/
theorem complete_setValid_inv (hb : s.busy = true) (v : Bool) : (complete (setValid v s)).Inv := by
  obtain ⟨hcode, herr, -, -, hbusy⟩ := h.status
  exact ⟨h.param, h.lengths, ⟨hcode, herr, fun _ => rfl, fun _ => ⟨rfl, (hbusy hb).2.1⟩, fun hb => (nomatch hb)⟩,
    h.buffers, h.results⟩

theorem setCsum_inv (v : Byte) : (setCsum v s).Inv :=
  ⟨h.param, h.lengths, h.status, h.buffers, h.results⟩

theorem setCsLen_inv (v : BitVec 8) : (setCsLen v s).Inv :=
  ⟨h.param, h.lengths, h.status, h.buffers, h.results⟩

theorem setInLen_inv {n : BitVec 23} (hn : n.toNat ≤ s.nIbuf) : (setInLen n s).Inv :=
  ⟨h.param, ⟨hn, h.lengths.2⟩, h.status, h.buffers, h.results⟩

theorem setOutLen_zero_inv : (setOutLen 0#9 s).Inv :=
  ⟨h.param, ⟨h.lengths.1, .inl rfl, h.lengths.2.2⟩, h.status, h.buffers,
    ⟨fun _ hi => absurd hi (Nat.not_lt_zero _), h.results.2⟩⟩

/-- Error entry with one of the two codes of 60_exceptions.md R220, where VALID is 0. -/
theorem raiseError_inv (hvalid : s.valid = false) {code : BitVec 4} (hne : code ≠ 0#4) (hle : code.toNat ≤ 2) :
    (raiseError code s).Inv :=
  ⟨h.param, h.lengths,
    ⟨hle, by simp [hne], fun _ => rfl, fun hv => (nomatch hvalid.symm.trans hv), fun hb => (nomatch hb)⟩,
    h.buffers, h.results⟩

theorem illegalCommand_inv : (illegalCommand s).Inv :=
  ⟨h.param, h.lengths,
    ⟨Nat.le_refl 2, ⟨fun he => (nomatch he), fun he => (nomatch he)⟩, fun _ => rfl,
      fun hv => (nomatch hv), fun hb => (nomatch hb)⟩,
    h.buffers, h.results⟩

theorem storeIbuf_inv {i : Nat} (hi : i < s.nIbuf) (b : Byte) : (storeIbuf i b s).Inv := by
  obtain ⟨⟨hwf, hlt⟩, hout⟩ := h.buffers
  refine ⟨h.param, h.lengths, h.status, ⟨⟨Memory.write_wf hwf i b, fun c hc => ?_⟩, hout⟩, h.results⟩
  obtain rfl | hc := Memory.mem_write hc
  · exact hi
  · exact hlt c hc

/-- A frame of at most MAX_FRAME bytes fits OBUF and OUT_LEN, and fills the result range. -/
theorem storeFrame_inv {p : List Byte} (hp : p.length ≤ 255) : (storeFrame p s).Inv := by
  obtain ⟨hinLen, -, hres⟩ := h.lengths
  obtain ⟨hibuf, ⟨hwf, hlt⟩, hrbuf⟩ := h.buffers
  obtain ⟨-, hresults⟩ := h.results
  have hlen := storeFrame_outLen_toNat hp s
  refine ⟨h.param, ⟨hinLen, .inr ?_, hres⟩, h.status, ⟨hibuf, ⟨Memory.writeList_wf hwf _ _, fun c hc => ?_⟩, hrbuf⟩,
    ⟨fun i hi => ?_, hresults⟩⟩
  · rw [hlen, maxFrame_eq]
    omega
  · obtain ⟨-, hc, -⟩ | hc := Memory.mem_writeList hc
    · rw [wireBytes_frameOf_length] at hc
      rw [maxFrame_eq]
      omega
    · exact hlt c hc
  · rw [hlen] at hi
    have hi' : i < (wireBytes (frameOf p)).length := by rwa [wireBytes_frameOf_length]
    exact Memory.written_iff.2 ⟨_, (read_storeFrame_obuf_of_lt hi s).trans (List.getElem?_eq_getElem hi')⟩

/-- A scan has at most one entry per byte, so its result fits RBUF and RES_COUNT (42_frame_scanner.md R171). -/
theorem storeResult_scan_inv {buf : List Byte} (hbuf : s.InputIs buf) : (storeResult (scan buf) s).Inv := by
  obtain ⟨hinLen, hout, -⟩ := h.lengths
  obtain ⟨hibuf, hobuf, hwf, hlt⟩ := h.buffers
  obtain ⟨hwritten, -, hkind⟩ := h.results
  have hlen := storeResult_scan_resCount_toNat hbuf
  have hle : (scan buf).length ≤ s.nIbuf := (scan_length_le buf).trans (hbuf.1 ▸ hinLen)
  refine ⟨h.param, ⟨hinLen, hout, ?_⟩, h.status, ⟨hibuf, hobuf, Memory.writeList_wf hwf _ _, fun c hc => ?_⟩,
    ⟨hwritten, fun i hi => ?_, fun c hc => ?_⟩⟩
  · rw [hlen]
    exact hle
  · obtain ⟨-, hc, -⟩ | hc := Memory.mem_writeList hc
    · rw [List.length_map, Nat.zero_add] at hc
      exact hc.trans_le hle
    · exact hlt c hc
  · rw [hlen] at hi
    obtain ⟨c, -, hread⟩ := exists_read_storeResult_scan_rbuf hi s
    exact Memory.written_iff.2 ⟨_, hread⟩
  · obtain ⟨-, -, hc⟩ | hc := Memory.mem_writeList hc
    · obtain ⟨e, -, he⟩ := List.mem_map.1 hc
      exact he ▸ descKind_desc_ne_reserved e
    · exact hkind c hc

/-! ### The invariant over a step -/

theorem ExecNext.inv {i : Instr} (hrun : ExecNext i s t) : t.Inv := by
  cases hrun with
  | accepted op => exact accept_inv h op
  | tooLong busy =>
    obtain ⟨-, -, -, -, hbusy⟩ := h.status
    exact raiseError_inv (setOutLen_zero_inv h) (hbusy busy).2.2 (by decide) (by decide)
  | encoded p busy len input => exact complete_inv (storeFrame_inv h (input.1.trans_le len))
  | summed => exact complete_inv (setCsum_inv h _)
  | validated p busy => exact complete_setValid_inv h busy _
  | scanned p busy input => exact complete_inv (storeResult_scan_inv h input)
  | reset => exact resetBlock_inv h

theorem StepEffect.inv (hstep : StepEffect s t) : t.Inv := by
  have hwrite (rest : List ScriptItem) : (afterWrite rest s).Inv := h.of_sameBlock (sameBlock_with s _ _ _ _ _)
  cases hstep with
  | completed who busy run => exact run.inv (h.of_sameBlock (sameBlock_with s _ _ _ _ _))
  | accepted who op rest => exact accept_inv (hwrite rest) op
  | reset who rest => exact resetBlock_inv (hwrite rest)
  | illegal who v e rest => exact illegalCommand_inv (hwrite rest)
  | inLen who v rest head idle le =>
    have hle : (v.setWidth 23).toNat ≤ v.toNat := (BitVec.toNat_setWidth 23 v).trans_le (Nat.mod_le _ _)
    exact setInLen_inv (hwrite rest) (hle.trans le)
  | csLen who v rest => exact setCsLen_inv (hwrite rest) _
  | ibuf who i b rest head idle lt => exact storeIbuf_inv (hwrite rest) lt b
  | quiet same => exact h.of_sameBlock same

end

/-- Settles O57: `StepEffect.inv`, which keeps the invariant over each of the things a step can do. -/
theorem stepKeepsInvariant : Obligations.StepKeepsInvariant := fun _ _ h hstep => (step_effect hstep).inv h

end Sys2Proof.Machine
end

section
/-! One step is one turn of one agent (10_state.md R20, 43_control_and_host.md sections 1, 3 and 5). -/

namespace Sys2Proof.Machine

section

variable {s : State}

theorem step_of_host (hwho : nextAgent s = .host) : step s = hostTurn (takeTurn s) := by
  rw [step, hwho]
  rfl

/-- The host makes the next access of its script. -/
theorem step_of_access {a : HostAccess} {rest : List ScriptItem} (hwho : nextAgent s = .host)
    (hhead : s.script = .access a :: rest) : step s = hostAccess a (setScript rest (takeTurn s)) := by
  rw [step_of_host hwho, hostTurn, takeTurn_script, hhead]

/-- WAIT's turn is a read of STATUS, and stays on the script while BUSY = 1 (log 11). -/
theorem hostTurn_of_wait {rest : List ScriptItem} (hhead : s.script = .wait :: rest) :
    hostTurn s = hostAccess (.regRead 0x04) (setScript (if s.busy then .wait :: rest else rest) s) := by
  rw [hostTurn, hhead]
  rfl

theorem step_of_wait {rest : List ScriptItem} (hwho : nextAgent s = .host) (hhead : s.script = .wait :: rest)
    (hcode : s.errCode.toNat ≤ 2) :
    step s = .next
      (answer (.word (statusWord s)) (setScript (if s.busy then .wait :: rest else rest) (takeTurn s))) := by
  rw [step_of_host hwho, hostTurn_of_wait (s := takeTurn s) hhead]
  exact regRead_status_of_le (s := setScript _ (takeTurn s)) hcode

theorem step_of_script_ended (hwho : nextAgent s = .host) (hend : s.script = []) : step s = .next (takeTurn s) := by
  rw [step_of_host hwho, hostTurn, takeTurn_script, hend]

theorem step_of_engine_idle (hwho : nextAgent s = .engine) (hidle : s.busy = false) : step s = .next (takeTurn s) := by
  rw [step, hwho]
  exact if_neg (ne_true_of_eq_false hidle)

end

/-- Settles O47: the agent whose turn it is takes it; the two empty turns only use the schedule's entry. -/
theorem stepTakesOneTurn : Obligations.StepTakesOneTurn :=
  ⟨fun _ _ _ => step_of_access, fun _ => step_of_engine_idle, fun _ => step_of_script_ended⟩

theorem decode_of_decodeTableWord {w : Nat} {i : Instr} (h : decodeTableWord 32 w = some i) :
    decode (BitVec.ofNat 32 w) = .ok i := by
  rw [decodeTableWord] at h
  split at h
  next =>
    cases hd : decode (BitVec.ofNat 32 w) with
    | ok j => rw [hd] at h; cases h; rfl
    | error e => rw [hd] at h; cases h
  next => cases h

/-- The host's write of a command word that the block takes is that command's exec. -/
theorem step_of_written_command {s : State} {w : Word} {rest : List ScriptItem} {i : Instr}
    (hwho : nextAgent s = .host) (hhead : s.script = .access (.regWrite 0x00 w) :: rest) (hdec : decode w = .ok i)
    (htaken : s.busy = false ∨ i = .softReset) : step s = exec i (afterWrite rest s) :=
  (step_of_access hwho hhead).trans (regWrite_cmd_taken hdec htaken)

/-- Settles O45: the access is a CMD write that the block takes; `withFetchWord` places such a write. -/
theorem stepRunsWrittenCommand : Obligations.StepRunsWrittenCommand := by
  refine ⟨fun _ _ _ _ => step_of_written_command, fun s w i hw hdec => ?_⟩
  have hword : decode (BitVec.ofNat 32 (w % 2 ^ 32)) = .ok i := by
    rw [Nat.mod_eq_of_lt hw]
    exact decode_of_decodeTableWord hdec
  exact step_of_written_command (s := s.withFetchWord 32 w) rfl rfl hword (.inl rfl)

end Sys2Proof.Machine
end

section
/-! A careful host (43_control_and_host.md section 4): its accesses are answered, draw no free value, and leave the
command in flight with its input. -/

namespace Sys2Proof.Machine

/-! ### Progress -/

theorem exists_exec_of_taken {i : Instr} {s : State} (h : s.busy = false ∨ i = .softReset) :
    ∃ t, exec i s = .next t := by
  cases i with
  | softReset => exact ⟨_, exec_softReset s⟩
  | encode => exact ⟨_, exec_of_idle (h.resolve_right (by decide)) .encode⟩
  | checksum => exact ⟨_, exec_of_idle (h.resolve_right (by decide)) .checksum⟩
  | validate => exact ⟨_, exec_of_idle (h.resolve_right (by decide)) .validate⟩
  | scan => exact ⟨_, exec_of_idle (h.resolve_right (by decide)) .scan⟩

/-- A CMD write is never a fault: it starts no command that has to read its input at once. -/
theorem exists_writeCmd (v : Word) (s : State) : ∃ t, writeCmd v s = .next t := by
  rw [writeCmd]
  split
  next i hi =>
    split
    next => exact ⟨_, rfl⟩
    next htaken => exact exists_exec_of_taken (by simpa [or_iff_not_imp_left] using htaken)
  next =>
    split
    next => exact ⟨_, rfl⟩
    next => exact ⟨_, rfl⟩

theorem exists_regWrite (off : Nat) (v : Word) (s : State) : ∃ t, regWrite off v s = .next t := by
  rw [regWrite]
  split
  · exact exists_writeCmd v _
  · split
    · exact ⟨_, rfl⟩
    · exact ⟨_, rfl⟩

theorem exists_ibufWrite (i : Nat) (b : Byte) (s : State) : ∃ t, ibufWrite i b s = .next t := by
  by_cases h : s.busy = true ∨ s.nIbuf ≤ i
  · exact ⟨_, ibufWrite_dropped h b⟩
  · rw [not_or, Bool.not_eq_true, Nat.not_le] at h
    exact ⟨_, ibufWrite_stores h.1 h.2 b⟩

section

variable {s t : State} (h : s.Inv)

include h

theorem exists_regRead {off : Nat} (hmust : HostMust s (.regRead off)) : ∃ t, regRead off s = .next t := by
  cases hr : Reg.ofOffset off with
  | none => exact ⟨_, regRead_of_ofOffset_eq_none hr s⟩
  | some r =>
    have hvalue : outputReg r = false ∨ s.busy = false :=
      (Bool.eq_false_or_eq_true s.busy).imp (fun hb => hmust hb r hr) id
    obtain rfl := Reg.ofOffset_eq_some_iff.1 hr
    by_cases hstatus : r = .status
    · subst hstatus
      exact ⟨_, regRead_status_of_le h.status.1⟩
    · exact ⟨_, regRead_value hstatus hvalue⟩

omit h in
theorem exists_ibufRead {i : Nat} (hmust : HostMust s (.ibufRead i)) : ∃ t, ibufRead i s = .next t := by
  obtain hout | hin := le_or_gt s.nIbuf i
  · exact ⟨_, (ibufReadReturns s i).1 hout⟩
  · obtain ⟨b, hb⟩ := Memory.written_iff.1 (hmust hin)
    exact ⟨_, (ibufReadReturns s i).2.2 b hin hb⟩

theorem exists_obufRead {i : Nat} (hmust : HostMust s (.obufRead i)) : ∃ t, obufRead i s = .next t := by
  obtain hout | hin := le_or_gt maxFrame i
  · exact ⟨_, (obufReadReturns s i).1 hout⟩
  · obtain ⟨hidle, hlt⟩ := hmust hin
    obtain ⟨b, hb⟩ := Memory.written_iff.1 (h.results.1 i hlt)
    exact ⟨_, (obufReadReturns s i).2.2.2 b hin hidle hb⟩

/-- No descriptor in RBUF is of the reserved KIND, so every result is returned. -/
theorem exists_rbufRead {i : Nat} (hmust : HostMust s (.rbufRead i)) : ∃ t, rbufRead i s = .next t := by
  obtain ⟨-, hwritten, hkind⟩ := h.results
  obtain hout | hin := le_or_gt s.nIbuf i
  · exact ⟨_, (rbufReadReturns s i).1 hout⟩
  · obtain ⟨hidle, hlt⟩ := hmust hin
    obtain ⟨d, hd⟩ := Memory.written_iff.1 (hwritten i hlt)
    exact ⟨_, (rbufReadReturns s i).2.2.2 d hin hidle hd fun hreserved => hkind _ (Memory.mem_of_read hd) hreserved.1⟩

theorem exists_hostAccess {a : HostAccess} (hmust : HostMust s a) : ∃ t, hostAccess a s = .next t := by
  cases a with
  | regRead off => exact exists_regRead h hmust
  | regWrite off v => exact exists_regWrite off v s
  | ibufWrite i b => exact exists_ibufWrite i b s
  | ibufRead i => exact exists_ibufRead hmust
  | obufRead i => exact exists_obufRead h hmust
  | rbufRead i => exact exists_rbufRead h hmust

/-- A step of a block with its input ready and a careful host answers a next state. -/
theorem exists_step_of_careful (hready : s.FlightReady) (hcareful : nextAgent s = .host → s.HostCareful) :
    ∃ t, step s = .next t := by
  cases hwho : nextAgent s with
  | engine =>
    cases hb : s.busy with
    | true =>
      rw [step_of_engine_busy hb hwho]
      exact exec_of_input (s := takeTurn s) s.pending hb (hready hb)
    | false => exact ⟨_, step_of_engine_idle hwho hb⟩
  | host =>
    match hhead : s.script with
    | [] => exact ⟨_, step_of_script_ended hwho hhead⟩
    | .wait :: rest => exact ⟨_, step_of_wait hwho hhead h.status.1⟩
    | .access a :: rest =>
      rw [step_of_access hwho hhead]
      exact exists_hostAccess (h.of_sameBlock (sameBlock_with s _ _ _ _ _)) (hcareful hwho a rest hhead)

end

/-! ### Preservation -/

section

variable {s t : State}

/-- The command in flight keeps its input, and one is accepted only over a written input. -/
theorem StepEffect.flightReady (h : StepEffect s t) (hready : s.FlightReady)
    (hcareful : nextAgent s = .host → s.HostCareful) : t.FlightReady := by
  cases h with
  | completed who busy run =>
    obtain ⟨hidle, -⟩ := run.completed busy (Op.toInstr_ne_softReset _)
    exact fun hb => (nomatch hidle.symm.trans hb)
  | accepted who op rest head idle =>
    exact fun _ => .inl (hcareful who _ rest head rfl idle _ (decode_encode _) (Op.toInstr_ne_softReset op))
  | reset | illegal => exact fun hb => (nomatch hb)
  | inLen _ _ _ _ idle | csLen _ _ _ _ idle | ibuf _ _ _ _ _ idle => exact fun hb => (nomatch idle.symm.trans hb)
  | quiet same =>
    simpa only [State.FlightReady, State.InputWritten, same.busy, same.inLen, same.ibuf, same.pending] using hready

/-- Only SOFT_RESET draws a free value of the commands. -/
theorem ExecNext.draws_eq {i : Instr} (h : ExecNext i s t) (hi : i ≠ .softReset) : t.draws = s.draws := by
  cases h with
  | reset => exact absurd rfl hi
  | _ => rfl

/-- A careful host reads no output while BUSY = 1, so it draws no free value but by SOFT_RESET. -/
theorem HostNext.draws_eq_or_reset {a : HostAccess} (h : HostNext a s t) (hmust : HostMust s a) :
    t.draws = s.draws ∨ isSoftReset a = true := by
  cases h with
  | freeReg r busy out => cases out.symm.trans (hmust busy r (Reg.ofOffset_eq_some_iff.2 rfl))
  | freeObuf i busy lt => cases busy.symm.trans (hmust lt).1
  | freeRbuf i busy lt => cases busy.symm.trans (hmust lt).1
  | command v i dec taken run =>
    by_cases hi : i = .softReset
    · subst hi
      exact .inr (decode_eq_ok_iff.1 dec ▸ isSoftReset_encode)
    · exact .inl (run.draws_eq hi)
  | status v =>
    rw [writeStatus_eq]
    exact .inl rfl
  | _ => exact .inl rfl

theorem StepNext.draws_eq_or_reset (h : StepNext s t) (hcareful : nextAgent s = .host → s.HostCareful) :
    t.draws = s.draws ∨
      (nextAgent s = .host ∧ ∃ a rest, s.script = .access a :: rest ∧ isSoftReset a = true) := by
  cases h with
  | engine who busy run => exact .inl (run.draws_eq (Op.toInstr_ne_softReset _))
  | access who a rest head run =>
    exact (run.draws_eq_or_reset (hcareful who a rest head)).imp_right fun hreset => ⟨who, a, rest, head, hreset⟩
  | _ => exact .inl rfl

end

/-- Settles O58: `exists_step_of_careful` gives the next state; the invariant, the command's input and the draw counter
are kept by it. -/
theorem carefulHostNeverFaults : Obligations.CarefulHostNeverFaults := by
  intro s h hready hcareful
  obtain ⟨t, ht⟩ := exists_step_of_careful h hready hcareful
  exact ⟨t, ht, (step_effect ht).inv h, (step_effect ht).flightReady hready hcareful,
    (step_next ht).draws_eq_or_reset hcareful⟩

end Sys2Proof.Machine
end

section
/-! WAIT ends (30_encoding.md section 5): the engine completes the command in flight at the latest when the schedule is
used up, and the read of STATUS after that is the last. -/

namespace Sys2Proof.Machine

theorem statusWord_bit_busy (s : State) : (statusWord s).getLsbD 0 = s.busy := by
  simp only [statusWord, flag, BitVec.getLsbD_append, BitVec.getLsbD_ofBool]
  simp

theorem statusWord_bit_done (s : State) : (statusWord s).getLsbD 1 = s.done := by
  simp only [statusWord, flag, BitVec.getLsbD_append, BitVec.getLsbD_ofBool]
  simp

theorem core_run_succ {s t : State} (h : step s = .next t) (k : Nat) :
    Sys2Proof.core.run (k + 1) s = Sys2Proof.core.run k t := by
  have hcore : Sys2Proof.core.step s = .next t := h
  simp only [Host.Core.run, hcore]

/-- Within `n` steps a host at WAIT has gone on to `rest`, with a last read of BUSY = 0, and of DONE = 1 if a command
was in flight or had ended. -/
def PastWait (n : Nat) (s : State) (rest : List ScriptItem) : Prop :=
  ∃ (k : Nat) (t : State) (v : Word), k ≤ n ∧ Sys2Proof.core.run k s = .next t ∧
    t.script = rest ∧ t.busy = false ∧ t.reply = some (.word v) ∧ v.getLsbD 0 = false ∧
    (s.busy = true ∨ s.done = true → t.done = true ∧ v.getLsbD 1 = true)

theorem ExecNext.script_and_schedule_eq {i : Instr} {s t : State} (h : ExecNext i s t) :
    t.script = s.script ∧ t.schedule = s.schedule := by
  cases h <;> exact ⟨rfl, rfl⟩

section

variable {s t : State} {rest : List ScriptItem} {m n : Nat}

theorem PastWait.mono (h : PastWait m s rest) (hmn : m ≤ n) : PastWait n s rest := by
  obtain ⟨k, t, v, hk, hrun⟩ := h
  exact ⟨k, t, v, hk.trans hmn, hrun⟩

/-- A step before WAIT's end costs one step and must not lose DONE. -/
theorem PastWait.of_step (hstep : step s = .next t) (h : PastWait n t rest)
    (hdone : s.busy = true ∨ s.done = true → t.busy = true ∨ t.done = true) : PastWait (n + 1) s rest := by
  obtain ⟨k, u, v, hk, hrun, hscript, hbusy, hreply, hbit, hended⟩ := h
  exact ⟨k + 1, u, v, Nat.succ_le_succ hk, (core_run_succ hstep k).trans hrun, hscript, hbusy, hreply, hbit,
    fun hs => hended (hdone hs)⟩

variable (hscript : s.script = .wait :: rest) (hcode : s.errCode.toNat ≤ 2)

include hscript hcode

/-- The read of STATUS in an idle block is WAIT's last. -/
theorem pastWait_of_host_idle (hwho : nextAgent s = .host) (hidle : s.busy = false) : PastWait 1 s rest := by
  refine ⟨1, _, statusWord s, Nat.le_refl 1, core_run_succ (step_of_wait hwho hscript hcode) 0, ?_, hidle, rfl,
    (statusWord_bit_busy s).trans hidle, fun hs => ?_⟩
  · exact if_neg (ne_true_of_eq_false hidle)
  · have hdone : s.done = true := hs.resolve_left (ne_true_of_eq_false hidle)
    exact ⟨hdone, (statusWord_bit_done s).trans hdone⟩

/-- In an idle block the engine's turns change nothing, and the host's next turn is WAIT's last. -/
theorem pastWait_of_idle (hidle : s.busy = false) : PastWait (s.schedule.length + 1) s rest := by
  induction hsched : s.schedule generalizing s with
  | nil =>
    have hwho : nextAgent s = .host := by simp [nextAgent, hsched, hidle]
    exact (pastWait_of_host_idle hscript hcode hwho hidle).mono (by simp)
  | cons agent sched ih =>
    have hwho : nextAgent s = agent := by simp [nextAgent, hsched]
    cases agent with
    | host => exact (pastWait_of_host_idle hscript hcode hwho hidle).mono (by simp)
    | engine =>
      have hrest : PastWait (sched.length + 1) (takeTurn s) rest :=
        ih (s := takeTurn s) hscript hcode hidle (by simp [hsched])
      exact hrest.of_step (step_of_engine_idle hwho hidle) id

/-- The completion leaves an idle block with DONE 1. -/
theorem pastWait_of_engine_busy (hready : s.FlightReady) (hwho : nextAgent s = .engine) (hb : s.busy = true) :
    PastWait (s.schedule.tail.length + 2) s rest := by
  obtain ⟨t, ht⟩ := exec_of_input (s := takeTurn s) s.pending hb (hready hb)
  have hrun := exec_next ht
  obtain ⟨hidle, hdone⟩ := hrun.completed hb (Op.toInstr_ne_softReset _)
  obtain ⟨hscript', hsched'⟩ := hrun.script_and_schedule_eq
  have hrest := pastWait_of_idle (hscript'.trans hscript) (hrun.errCode_le hcode) hidle
  rw [hsched'] at hrest
  exact hrest.of_step ((step_of_engine_busy hb hwho).trans ht) fun _ => .inr hdone

/-- The host's turns while BUSY = 1 repeat WAIT's read; the engine's turn completes the command. -/
theorem pastWait_of_ready (hready : s.FlightReady) : PastWait (s.schedule.length + 2) s rest := by
  induction hsched : s.schedule generalizing s with
  | nil =>
    cases hb : s.busy with
    | false => exact (pastWait_of_idle hscript hcode hb).mono (by simp [hsched])
    | true =>
      have hwho : nextAgent s = .engine := by simp [nextAgent, hsched, hb]
      exact (pastWait_of_engine_busy hscript hcode hready hwho hb).mono (by simp [hsched])
  | cons agent sched ih =>
    have hwho : nextAgent s = agent := by simp [nextAgent, hsched]
    cases hb : s.busy with
    | false => exact (pastWait_of_idle hscript hcode hb).mono (by simp [hsched])
    | true =>
      cases agent with
      | engine => exact (pastWait_of_engine_busy hscript hcode hready hwho hb).mono (by simp [hsched])
      | host =>
        have hstep := step_of_wait hwho hscript hcode
        rw [if_pos hb] at hstep
        have hrest : PastWait (sched.length + 2) _ rest :=
          ih (s := answer (.word (statusWord s)) (setScript (.wait :: rest) (takeTurn s))) rfl hcode hready
            (by simp [hsched])
        exact hrest.of_step hstep id

end

/-- Settles O48: `pastWait_of_ready`, by induction on the schedule. -/
theorem waitEnds : Obligations.WaitEnds := fun _ _ h hready hscript =>
  pastWait_of_ready hscript h.status.1 hready

end Sys2Proof.Machine
end

section
/-! Laws of the checksum (40_frame_encoder.md section 1), and `validate` on encoded and damaged frames
(41_frame_decoder.md section 2). -/

namespace Sys2Proof.Machine

theorem eq_checksum_iff {len c : Byte} {p : List Byte} :
    c = checksum len p ↔ (len.toNat + byteSum p + c.toNat) % 256 = 0 := by
  have := c.isLt
  rw [← BitVec.toNat_inj, checksum_toNat]
  omega

/-- The checksum is a function of the whole sum modulo 256, and an injective one. -/
theorem checksum_eq_checksum_iff {len len' : Byte} {p p' : List Byte} :
    checksum len p = checksum len' p' ↔
      (len.toNat + byteSum p) % 256 = (len'.toNat + byteSum p') % 256 := by
  rw [← BitVec.toNat_inj, checksum_toNat, checksum_toNat]
  omega

/-- Settles O10: `eq_checksum_iff`. -/
theorem checksumCancelsTheSum : Obligations.ChecksumCancelsTheSum := fun _ _ p =>
  byteSum_eq_sum p ▸ eq_checksum_iff

/-- Settles O12: the payload enters the checksum by its sum alone, and a permutation has the same sum. -/
theorem checksumIgnoresOrder : Obligations.ChecksumIgnoresOrder := by
  intro len p q
  have key (h : (p.map BitVec.toNat).sum % 256 = (q.map BitVec.toNat).sum % 256) :
      checksum len p = checksum len q := by
    rw [checksum_eq_checksum_iff, byteSum_eq_sum, byteSum_eq_sum, Nat.add_mod, h, ← Nat.add_mod]
  exact ⟨key, fun hperm => key (congrArg (· % 256) (hperm.map _).sum_eq)⟩

/-- A single bit inside a byte is not lost by the shift. -/
theorem bit_ne_zero : ∀ k < 8, 1#8 <<< k ≠ 0#8 := by decide

theorem toNat_flip_ne {k : Nat} (hk : k < 8) (b : Byte) : (b ^^^ (1#8 <<< k)).toNat ≠ b.toNat := by
  rw [ne_eq, BitVec.toNat_inj, xor_left_eq_self_iff]
  exact bit_ne_zero k hk

/-- Another byte in one place changes the sum by the difference. -/
theorem byteSum_set {p : List Byte} {i : Nat} {b : Byte} (h : p[i]? = some b) (c : Byte) :
    byteSum (p.set i c) + b.toNat = byteSum p + c.toNat := by
  induction p generalizing i with
  | nil => cases h
  | cons a p ih =>
    cases i with
    | zero =>
      cases h
      simp only [List.set_cons_zero, byteSum]
      omega
    | succ i =>
      have := ih (i := i) (by simpa using h)
      simp only [List.set_cons_succ, byteSum]
      omega

theorem checksum_flip_payload_ne {len b : Byte} {p : List Byte} {i k : Nat} (hk : k < 8) (hb : p[i]? = some b) :
    checksum len (p.set i (b ^^^ (1#8 <<< k))) ≠ checksum len p := by
  have hne := toNat_flip_ne hk b
  have hsum := byteSum_set hb (b ^^^ (1#8 <<< k))
  have := b.isLt
  have := (b ^^^ (1#8 <<< k)).isLt
  rw [ne_eq, checksum_eq_checksum_iff]
  omega

/-- Settles O11: a flipped bit gives another byte, and two bytes that differ differ modulo 256. -/
theorem checksumDetectsBitFlips : Obligations.ChecksumDetectsBitFlips := by
  refine fun len p k hk => ⟨?_, fun i b => checksum_flip_payload_ne hk⟩
  have hne := toNat_flip_ne hk len
  have := len.isLt
  have := (len ^^^ (1#8 <<< k)).isLt
  rw [ne_eq, checksum_eq_checksum_iff]
  omega

theorem validate_encodeFrame {p f : List Byte} (hp : 1 ≤ p.length) (hf : encodeFrame p = some f) :
    validate f = true := by
  obtain ⟨hle, rfl⟩ := encodeFrame_eq_some_iff.1 hf
  have hfits : 2 + (frameOf p).length.toNat < (wireBytes (frameOf p)).length := by
    rw [frameOf_length_toNat hle, wireBytes_frameOf_length]
    omega
  rw [validate_iff_of_fits rfl hfits, checksumByte_of_wireBytes_frameOf hle, payload_of_wireBytes_frameOf hle]
  exact ⟨by rw [wireBytes_frameOf_length]; omega, rfl, rfl⟩

/-- The damaged byte stands in the payload, so the frame's length and checksum bytes are as before. -/
theorem validate_flip_payload {f : List Byte} {len b : Byte} {i k : Nat} (hf : validate f = true)
    (hlen : f[1]? = some len) (hlo : 2 ≤ i) (hhi : i < 2 + len.toNat) (hb : f[i]? = some b) (hk : k < 8) :
    validate (f.set i (b ^^^ (1#8 <<< k))) = false := by
  obtain ⟨len', hlen', hfits⟩ := exists_fits_of_validate hf
  obtain rfl := Option.some.inj (hlen.symm.trans hlen')
  obtain ⟨-, -, hcheck⟩ := (validate_iff_of_fits hlen hfits).1 hf
  refine Bool.eq_false_of_not_eq_true fun hdamaged => ?_
  have hlenSet : (f.set i (b ^^^ (1#8 <<< k)))[1]? = some len := by
    rw [List.getElem?_set_ne (by omega), hlen]
  obtain ⟨-, -, hcheckSet⟩ := (validate_iff_of_fits hlenSet (by rwa [List.length_set])).1 hdamaged
  have hpayload : ((f.drop 2).take len.toNat)[i - 2]? = some b := by
    rw [List.getElem?_take_of_lt (by omega), List.getElem?_drop, show 2 + (i - 2) = i by omega, hb]
  rw [List.getElem?_set_ne (by omega), hcheck, List.drop_set, if_neg (Nat.not_lt.2 hlo), List.take_set,
    Option.some_inj] at hcheckSet
  exact checksum_flip_payload_ne hk hpayload hcheckSet.symm

/-- Settles O22: the encoded frame's checksum byte matches, the empty payload's is below the floor, and a flipped
payload bit changes the checksum but not the checksum byte. -/
theorem validateOfEncodedFrame : Obligations.ValidateOfEncodedFrame :=
  ⟨fun _ _ => validate_encodeFrame, ⟨_, encodeFrame_of_le (Nat.zero_le _), validate_of_length_le (Nat.le_refl 3)⟩,
    fun _ _ _ _ _ => validate_flip_payload⟩

end Sys2Proof.Machine
end

section
/-! The entries of a scan tile the buffer (42_frame_scanner.md R165), and how many there are (R171). -/

namespace Sys2Proof.Machine

/-- The entries lie one behind the other, from cursor `c` to the end `n`. -/
def Tiles (c n : Nat) : List Entry → Prop
  | [] => c = n
  | e :: es => entryOffset e = c ∧ Tiles (c + entrySpan e) n es

/-- Each turn of the scan emits the entry at the cursor and goes on behind it. -/
theorem scanFrom_tiles {buf : List Byte} {c : Nat} (h : c ≤ buf.length) : Tiles c buf.length (scanFrom buf c) := by
  induction hn : buf.length - c using Nat.strong_induction_on generalizing c with
  | _ n ih =>
    obtain rfl | hlt := h.eq_or_lt
    · rw [scanFrom_of_le (Nat.le_refl _)]
      rfl
    · have hpos := entrySpan_pos (entryAt buf c)
      rw [scanFrom_of_lt hlt]
      exact ⟨entryOffset_entryAt buf c, ih _ (by omega) (entryAt_end_le hlt) rfl⟩

theorem scan_tiles (buf : List Byte) : Tiles 0 buf.length (scan buf) := scanFrom_tiles (Nat.zero_le _)

theorem Tiles.le_offset {c n : Nat} {es : List Entry} {e : Entry} (h : Tiles c n es) (he : e ∈ es) :
    c ≤ entryOffset e := by
  induction es generalizing c with
  | nil => cases he
  | cons d es ih =>
    obtain ⟨hoff, htail⟩ := h
    obtain rfl | he := List.mem_cons.1 he
    · exact hoff.ge
    · exact (Nat.le_add_right _ _).trans (ih htail he)

theorem Tiles.pairwise_offset {c n : Nat} {es : List Entry} (h : Tiles c n es) :
    (es.map entryOffset).Pairwise (· < ·) := by
  induction es generalizing c with
  | nil => exact List.Pairwise.nil
  | cons d es ih =>
    obtain ⟨hoff, htail⟩ := h
    refine List.pairwise_cons.2 ⟨fun o ho => ?_, ih htail⟩
    obtain ⟨e, he, rfl⟩ := List.mem_map.1 ho
    have := htail.le_offset he
    have := entrySpan_pos d
    omega

theorem Tiles.offset_head {c n : Nat} {es : List Entry} {e : Entry} (h : Tiles c n es) (he : es[0]? = some e) :
    entryOffset e = c := by
  cases es with
  | nil => cases he
  | cons d es =>
    cases he
    exact h.1

theorem Tiles.offset_next {c n k : Nat} {es : List Entry} {e e' : Entry} (h : Tiles c n es) (he : es[k]? = some e)
    (he' : es[k + 1]? = some e') : entryOffset e' = entryOffset e + entrySpan e := by
  induction k generalizing c es with
  | zero =>
    cases es with
    | nil => cases he
    | cons d es =>
      cases he
      obtain ⟨rfl, htail⟩ := h
      exact htail.offset_head he'
  | succ k ih =>
    cases es with
    | nil => cases he
    | cons d es => exact ih h.2 he he'

theorem Tiles.sum_span {c n : Nat} {es : List Entry} (h : Tiles c n es) : c + (es.map entrySpan).sum = n := by
  induction es generalizing c with
  | nil => exact h
  | cons d es ih =>
    rw [List.map_cons, List.sum_cons, ← Nat.add_assoc]
    exact ih h.2

/-- Every place from the cursor to the end belongs to exactly one entry. -/
theorem Tiles.exists_unique_entry {c n x : Nat} {es : List Entry} (h : Tiles c n es) (hlo : c ≤ x) (hhi : x < n) :
    ∃ (k : Nat) (e : Entry), es[k]? = some e ∧ entryOffset e ≤ x ∧ x < entryOffset e + entrySpan e ∧
      ∀ (k' : Nat) (e' : Entry),
        es[k']? = some e' → entryOffset e' ≤ x → x < entryOffset e' + entrySpan e' → k' = k := by
  induction es generalizing c with
  | nil =>
    have hcn : c = n := h
    omega
  | cons d es ih =>
    obtain ⟨hoff, htail⟩ := h
    by_cases hx : x < c + entrySpan d
    · refine ⟨0, d, rfl, by omega, by omega, fun k' e' he' hle _ => ?_⟩
      cases k' with
      | zero => rfl
      | succ k' =>
        have := htail.le_offset (List.mem_of_getElem? (l := es) he')
        omega
    · obtain ⟨k, e, he, hle, hlt, hunique⟩ := ih htail (Nat.not_lt.1 hx)
      refine ⟨k + 1, e, he, hle, hlt, fun k' e' he' hle' hlt' => ?_⟩
      cases k' with
      | zero =>
        cases he'
        omega
      | succ k' => rw [hunique k' e' he' hle' hlt']

/-- Settles O27: the scan's entries tile the buffer (`scan_tiles`), and each clause holds of any tiling. -/
theorem scanTilesTheBuffer : Obligations.ScanTilesTheBuffer := fun buf =>
  have h := scan_tiles buf
  ⟨h.pairwise_offset, fun _ => h.offset_head, fun _ _ _ => h.offset_next, (Nat.zero_add _).symm.trans h.sum_span,
    fun c => h.exists_unique_entry (Nat.zero_le c)⟩

theorem entrySpan_eq_one_iff {e : Entry} : entrySpan e = 1 ↔ ∃ off b, e = .raw off b := by
  cases e <;> simp [entrySpan]

/-- Every entry spans a byte at least, so there are as many as bytes only if each spans one. -/
theorem length_le_sum_span (es : List Entry) :
    es.length ≤ (es.map entrySpan).sum ∧ (es.length = (es.map entrySpan).sum ↔ ∀ e ∈ es, entrySpan e = 1) := by
  induction es with
  | nil => simp
  | cons d es ih =>
    obtain ⟨hle, heq⟩ := ih
    have := entrySpan_pos d
    rw [List.forall_mem_cons, ← heq, List.map_cons, List.sum_cons, List.length_cons]
    omega

/-- Settles O28: the spans sum to the buffer's length, and a Raw entry is one that spans one byte. -/
theorem scanLengthBound : Obligations.ScanLengthBound := by
  intro buf
  have hsum : ((scan buf).map entrySpan).sum = buf.length := (Nat.zero_add _).symm.trans (scan_tiles buf).sum_span
  obtain ⟨-, heq⟩ := length_le_sum_span (scan buf)
  rw [hsum] at heq
  exact ⟨scan_length_le buf, heq.trans (forall₂_congr fun _ _ => entrySpan_eq_one_iff)⟩

end Sys2Proof.Machine
end

section
/-! Encodings (30_encoding.md sections 2, 3 and 5): commands, descriptors and pseudo-instructions. -/

namespace Sys2Proof

theorem decodeTableWord_toNat (w : Word) : decodeTableWord 32 w.toNat = (decode w).toOption := by
  rw [decodeTableWord, if_pos ⟨Nat.le_refl 32, w.isLt⟩, BitVec.ofNat_toNat, BitVec.setWidth_eq]

theorem loadBytes_length (i : Nat) (bs : List Byte) : (loadBytes i bs).length = bs.length := by
  induction bs generalizing i with
  | nil => rfl
  | cons b bs ih => exact congrArg Nat.succ (ih (i + 1))

/-- LOAD writes byte `k` of its list to the place `k` behind the first. -/
theorem loadBytes_getElem? (i k : Nat) (bs : List Byte) :
    (loadBytes i bs)[k]? = bs[k]?.map fun b => .access (.ibufWrite (i + k) b) := by
  induction bs generalizing i k with
  | nil => rfl
  | cons b bs ih =>
    cases k with
    | zero => rfl
    | succ k =>
      rw [loadBytes, List.getElem?_cons_succ, List.getElem?_cons_succ, ih, Nat.add_assoc, Nat.add_comm 1]

end Sys2Proof

namespace Sys2Proof.Machine

/-- Settles O2: `decode_encode`, and the table's number of a word is the word. -/
theorem decodeOfEncode : Obligations.DecodeOfEncode := fun i =>
  ⟨decode_encode i, by rw [decodeTableWord_toNat, decode_encode]; rfl⟩

/-- Settles O3: five of the words are those of `decode_encode`; 0x0 has no assigned OP, the others are above 0xF. -/
theorem writtenWordsDecode : Obligations.WrittenWordsDecode :=
  ⟨decode_encode .encode, decode_encode .checksum, decode_encode .validate, decode_encode .scan,
    decode_encode .softReset, illegalWordsAreRejected.2.1 _ (.inl rfl), decode_of_le (by decide),
    decode_of_le (by decide)⟩

/-- Settles O6: `entryOfDesc_desc`. -/
theorem descriptorRoundTrip : Obligations.DescriptorRoundTrip := fun _ => entryOfDesc_desc

/-- Settles O8: the one-line expansions are their register writes, LOAD's is `loadBytes_getElem?` and the IN_LEN write
behind it, and WAIT's turn is `hostTurn_of_wait`. -/
theorem pseudoExpansions : Obligations.PseudoExpansions := by
  refine ⟨rfl, rfl, rfl, rfl, rfl, rfl, fun bs => ?_, rfl, fun _ _ => hostTurn_of_wait⟩
  have hlen := loadBytes_length 0 bs
  refine ⟨?_, fun k b hb => ?_, ?_⟩
  · rw [Pseudo.expand, List.length_append, hlen]
    rfl
  · have hk : k < (loadBytes 0 bs).length := hlen ▸ (List.getElem?_eq_some_iff.1 hb).1
    rw [Pseudo.expand, List.getElem?_append_left hk, loadBytes_getElem?, hb, Nat.zero_add]
    rfl
  · rw [Pseudo.expand, List.getElem?_append_right hlen.le, hlen, Nat.sub_self]
    rfl

end Sys2Proof.Machine
end

section
/-! What each command leaves unchanged, at acceptance and at completion (43_control_and_host.md sections 2 and 5). -/

namespace Sys2Proof.Machine

section

variable {s t : State}

/-- ENCODE is accepted, rejects its input's length, or stores the frame of its input. -/
theorem exec_encode_next (h : exec .encode s = .next t) :
    (s.busy = false ∧ t = accept .encode s) ∨
    (s.busy = true ∧ 255 < s.inLen.toNat ∧ t = raiseError invalidPayloadSize (setOutLen 0#9 s)) ∨
    (s.busy = true ∧ s.inLen.toNat ≤ 255 ∧ ∃ p, s.InputIs p ∧ t = complete (storeFrame p s)) := by
  cases hb : s.busy with
  | false =>
    cases (exec_of_idle hb .encode).symm.trans h
    exact .inl ⟨rfl, rfl⟩
  | true =>
    obtain hle | hgt := le_or_gt s.inLen.toNat 255
    · rw [exec_encode_of_le hb hle] at h
      exact .inr (.inr ⟨rfl, hle, withInput_next h⟩)
    · cases (exec_encode_of_tooLong hb hgt).symm.trans h
      exact .inr (.inl ⟨rfl, hgt, rfl⟩)

/-- SCAN is accepted, or stores the result of the scan of its input. -/
theorem exec_scan_next (h : exec .scan s = .next t) :
    (s.busy = false ∧ t = accept .scan s) ∨
    (s.busy = true ∧ ∃ p, s.InputIs p ∧ t = complete (storeResult (scan p) s)) := by
  cases hb : s.busy with
  | false =>
    cases (exec_of_idle hb .scan).symm.trans h
    exact .inl ⟨rfl, rfl⟩
  | true =>
    rw [exec_scan_of_busy hb] at h
    exact .inr ⟨rfl, withInput_next h⟩

end

/-- Settles O16: of its three ways only the successful completion stores, and that to OBUF[0..L+2]. -/
theorem encodeChangesOnlyItsOutputs : Obligations.EncodeChangesOnlyItsOutputs := by
  intro s t h
  obtain ⟨hidle, rfl⟩ | ⟨hb, hgt, rfl⟩ | ⟨hb, hle, p, ⟨hlen, -⟩, rfl⟩ := exec_encode_next h
  · exact ⟨rfl, rfl, rfl, rfl, rfl, rfl, rfl, rfl, rfl, rfl, rfl, fun _ => ⟨rfl, rfl, rfl⟩,
      fun hb => (nomatch hb.symm.trans hidle), fun _ _ => rfl⟩
  · exact ⟨rfl, rfl, rfl, rfl, rfl, rfl, rfl, rfl, rfl, rfl, rfl, fun hidle => (nomatch hb.symm.trans hidle),
      fun _ => ⟨rfl, rfl, fun _ => rfl, fun hle => absurd hgt (Nat.not_lt.2 hle)⟩, fun _ _ => rfl⟩
  · refine ⟨rfl, rfl, rfl, rfl, rfl, rfl, rfl, rfl, rfl, rfl, rfl, fun hidle => (nomatch hb.symm.trans hidle),
      fun _ => ⟨rfl, rfl, fun hgt => absurd hgt (Nat.not_lt.2 hle), fun _ => ⟨rfl, rfl⟩⟩, fun a ha => ?_⟩
    exact read_storeFrame_obuf_of_le (Nat.not_lt.1 fun hlt => ha ⟨hb, hle, hlen ▸ hlt⟩) s

/-- Settles O20: acceptance keeps the buffers, and the two completions write CSUM or VALID. -/
theorem registerCommandsChangeNoBuffer : Obligations.RegisterCommandsChangeNoBuffer := by
  intro i s t hi h
  cases exec_next h with
  | accepted op idle =>
    exact ⟨rfl, rfl, rfl, rfl, rfl, rfl, rfl, rfl, rfl, rfl, fun _ => rfl, fun hb => (nomatch hb.symm.trans idle),
      fun _ => rfl, fun _ => rfl, fun _ => rfl⟩
  | summed p busy =>
    exact ⟨rfl, rfl, rfl, rfl, rfl, rfl, rfl, rfl, rfl, rfl,
      fun hkept => hkept.elim (fun hv => (nomatch hv)) fun hidle => (nomatch busy.symm.trans hidle),
      fun _ => ⟨rfl, rfl, rfl, fun _ => rfl⟩, fun _ => rfl, fun _ => rfl, fun _ => rfl⟩
  | validated p busy =>
    exact ⟨rfl, rfl, rfl, rfl, rfl, rfl, rfl, rfl, rfl, rfl, fun _ => rfl,
      fun _ => ⟨rfl, rfl, rfl, fun hc => (nomatch hc)⟩, fun _ => rfl, fun _ => rfl, fun _ => rfl⟩
  | tooLong | encoded | scanned | reset => simp at hi

/-- Settles O31: acceptance keeps the outputs, and the completion stores one descriptor per entry of its
input's scan. -/
theorem scanChangesOnlyItsOutputs : Obligations.ScanChangesOnlyItsOutputs := by
  intro s t h
  obtain ⟨hidle, rfl⟩ | ⟨hb, p, hp, rfl⟩ := exec_scan_next h
  · exact ⟨rfl, rfl, rfl, rfl, rfl, rfl, rfl, rfl, rfl, rfl, rfl, rfl, fun _ => ⟨rfl, rfl⟩,
      fun hb => (nomatch hb.symm.trans hidle), fun _ _ => rfl⟩
  · refine ⟨rfl, rfl, rfl, rfl, rfl, rfl, rfl, rfl, rfl, rfl, rfl, rfl, fun hidle => (nomatch hb.symm.trans hidle),
      fun _ => ⟨rfl, rfl, rfl, rfl⟩, fun a ha => ?_⟩
    exact read_storeResult_rbuf_of_le (Nat.not_lt.1 fun hlt => ha ⟨hb, p, inputBytes_eq_some_iff.2 hp, hlt⟩) s

end Sys2Proof.Machine
end

section
/-! Host reads (20_memory.md section 3): they change nothing but AERR on an invalid access, and repeat their value while
BUSY = 0. -/

namespace Sys2Proof.Machine

/-- A host read. -/
def IsRead (a : HostAccess) : Prop :=
  (∃ off, a = .regRead off) ∨ (∃ i, a = .ibufRead i) ∨ (∃ i, a = .obufRead i) ∨ (∃ i, a = .rbufRead i)

theorem not_isRead_regWrite (off : Nat) (v : Word) : ¬ IsRead (.regWrite off v) := by simp [IsRead]

theorem not_isRead_ibufWrite (i : Nat) (b : Byte) : ¬ IsRead (.ibufWrite i b) := by simp [IsRead]

section

variable {a : HostAccess} {s t : State}

theorem HostNext.eq_of_isRead (h : HostNext a s t) (hread : IsRead a) :
    t = { s with reply := t.reply, draws := t.draws, aerr := t.aerr } := by
  cases h with
  | command | illegal | status | inLen | csLen => exact absurd hread (not_isRead_regWrite _ _)
  | ibuf => exact absurd hread (not_isRead_ibufWrite _ _)
  | _ => rfl

/-- A read sets AERR only at an offset without a register or at an index out of range. -/
theorem HostNext.aerr_of_isRead (h : HostNext a s t) (hread : IsRead a) :
    t.aerr = s.aerr ∨
      (∃ off, a = .regRead off ∧ Reg.ofOffset off = none) ∨ (∃ i, a = .ibufRead i ∧ s.nIbuf ≤ i) ∨
      (∃ i, a = .obufRead i ∧ maxFrame ≤ i) ∨ (∃ i, a = .rbufRead i ∧ s.nIbuf ≤ i) := by
  cases h with
  | invalid _ _ hinvalid => exact .inr hinvalid
  | dropped a hwrite =>
    obtain ⟨off, v, rfl⟩ | ⟨i, b, rfl⟩ := hwrite
    · exact absurd hread (not_isRead_regWrite off v)
    · exact absurd hread (not_isRead_ibufWrite i b)
  | command | illegal | status | inLen | csLen => exact absurd hread (not_isRead_regWrite _ _)
  | ibuf => exact absurd hread (not_isRead_ibufWrite _ _)
  | _ => exact .inl rfl

end

/-! ### A read made again -/

/-- No register shows the model's own reply. -/
theorem regValue_answer (reply : Reply) (s : State) (r : Reg) : regValue (answer reply s) r = regValue s r := by
  cases r <;> rfl

section

variable {s t : State} (hidle : s.busy = false)

include hidle

theorem regRead_again {off : Nat} (h : regRead off s = .next t) : regRead off t = .next t := by
  cases hr : Reg.ofOffset off with
  | none =>
    cases (regRead_of_ofOffset_eq_none hr s).symm.trans h
    exact regRead_of_ofOffset_eq_none hr _
  | some r =>
    obtain rfl := Reg.ofOffset_eq_some_iff.1 hr
    by_cases hstatus : r = .status
    · subst hstatus
      rw [regRead_status] at h
      split at h
      next => cases h
      next hcode =>
        cases h
        exact (regRead_status _).trans (if_neg hcode)
    · cases (regRead_value hstatus (.inr hidle)).symm.trans h
      rw [regRead_value (s := answer _ s) hstatus (.inr hidle), regValue_answer]
      rfl

omit hidle in
theorem ibufRead_again {i : Nat} (h : ibufRead i s = .next t) : ibufRead i t = .next t := by
  obtain ⟨hout, hunwritten, hvalue⟩ := ibufReadReturns s i
  obtain hi | hi := le_or_gt s.nIbuf i
  · cases (hout hi).symm.trans h
    exact (ibufReadReturns _ i).1 hi
  · cases hread : Memory.read (w := 8) s.ibuf i with
    | none => cases (hunwritten hi (Memory.written_eq_false.2 hread)).symm.trans h
    | some b =>
      cases (hvalue b hi hread).symm.trans h
      exact (ibufReadReturns _ i).2.2 b hi hread

theorem obufRead_again {i : Nat} (h : obufRead i s = .next t) : obufRead i t = .next t := by
  obtain ⟨hout, -, hunwritten, hvalue⟩ := obufReadReturns s i
  obtain hi | hi := le_or_gt 258 i
  · cases (hout hi).symm.trans h
    exact (obufReadReturns _ i).1 hi
  · cases hread : Memory.read (w := 8) s.obuf i with
    | none => cases (hunwritten hi hidle (Memory.written_eq_false.2 hread)).symm.trans h
    | some b =>
      cases (hvalue b hi hidle hread).symm.trans h
      exact (obufReadReturns _ i).2.2.2 b hi hidle hread

theorem rbufRead_again {i : Nat} (h : rbufRead i s = .next t) : rbufRead i t = .next t := by
  obtain ⟨hout, -, hunwritten, hvalue⟩ := rbufReadReturns s i
  obtain hi | hi := le_or_gt s.nIbuf i
  · cases (hout hi).symm.trans h
    exact (rbufReadReturns _ i).1 hi
  · cases hread : Memory.read s.rbuf i with
    | none => cases (hunwritten hi hidle (Memory.written_eq_false.2 hread)).symm.trans h
    | some d =>
      by_cases hreserved : descKind d = 0b11#2 ∧ i < s.resCount.toNat
      · cases (rbufRead_reserved hidle hi hread hreserved.1 hreserved.2).symm.trans h
      · cases (hvalue d hi hidle hread hreserved).symm.trans h
        exact (rbufReadReturns _ i).2.2.2 d hi hidle hread hreserved

theorem hostAccess_read_again {a : HostAccess} (hread : IsRead a) (h : hostAccess a s = .next t) :
    hostAccess a t = .next t := by
  obtain ⟨off, rfl⟩ | ⟨i, rfl⟩ | ⟨i, rfl⟩ | ⟨i, rfl⟩ := hread
  · exact regRead_again hidle h
  · exact ibufRead_again h
  · exact obufRead_again hidle h
  · exact rbufRead_again hidle h

end

/-- Settles O44: what a read can make of a state is in `HostNext`, and no read looks at what a read changes, but for
STATUS, which shows an AERR that its own read keeps. -/
theorem readsHaveNoSideEffect : Obligations.ReadsHaveNoSideEffect := fun _ _ _ hread h =>
  ⟨(hostAccess_next h).eq_of_isRead hread, (hostAccess_next h).aerr_of_isRead hread,
    fun hidle => hostAccess_read_again hidle hread h⟩

end Sys2Proof.Machine
end
